-- ==== Sys2Proof/Word.lean ====
section
/-! DEFINITION. The word types of SSCORE: one name for each width the spec gives a value
(00_scope.md R7 and R11, 20_memory.md R60). -/

namespace Sys2Proof

/-- R21: an 8-bit value, the element of `IB` and `OB`. -/
abbrev Byte := BitVec 8

/-- R23: a Packed Symbol, 12 bits (`SYM_W`). -/
abbrev Sym := BitVec 12

/-- R60: a code point as ENC writes it, 16 bits (`CPOUT_W`). -/
abbrev CPOut := BitVec 16

/-- R60: a code point as DEC reads it, 21 bits (`CPIN_W`). -/
abbrev CPIn := BitVec 21

/-- R25: a header value, 48 bits (`HDR_W`); also the width of a byte index (`BIDX_W`). -/
abbrev Len48 := BitVec 48

/-- R7: a symbol or code-point index or count, 49 bits (`SIDX_W`). -/
abbrev Len49 := BitVec 49

/-- R94: the length field of a run symbol, 10 bits (`LEN_W`). -/
abbrev RunLen := BitVec 10

/-- The word a host register access moves. DESIGN CHOICE (log entry 1): R30 gives fields and no bus width. -/
abbrev RegWord := BitVec 64

end Sys2Proof
end

