-- ==== Sys2Proof/Config.lean ====
section
/-! DEFINITION. What the implementation fixes (00_scope.md R7) and the free values the spec leaves open.
A constant without a body is a free value: nothing in Lean can evaluate it, so no statement can rest on one. -/

namespace Sys2Proof.Config

/-- R7, R131: the run threshold `T`: bytes for ZeroRun and FFRun, pair repetitions for PatternRun. -/
def runThreshold : Nat := 4

/-- R7: `MAXLEN`, the longest run one packed run token carries. -/
def maxLen : Nat := 1023

/-- R7: `HDR_SYMS`, the number of symbols of the header. -/
def headerSymbols : Nat := 4

/-- R7: `CP_BASE`, the first code point. -/
def cpBase : CPIn := 0xE000#21

/-- R7: `CP_LAST`, the last accepted code point. -/
def cpLast : CPIn := 0xEFFF#21

/-- DESIGN CHOICE, free (log entry 3): whether one write of `CTRL` that changes MODE and sets START stores MODE
before START samples it (`true`) or after, when the engine is BUSY and the write of MODE is ignored (`false`). -/
opaque ctrlModeWrittenFirst : Bool

/-- R43, free (log entry 6): what `RKIND` holds after START. -/
opaque freeKind : Nat → BitVec 2

/-- R43, free (log entry 6): what `P0` and `P1` hold after START; U6 and U7 (log entry 11): what a read of `OB` returns
where the spec defines no value. -/
opaque freeByte : Nat → Byte

/-- R43, free (log entry 6): what each 12-bit field of `HDR` holds after START. -/
opaque freeSym : Nat → Sym

/-- U6 and U7, free (log entry 11): what a read of `OC` returns where the spec defines no value. -/
opaque freeCodePoint : Nat → CPOut

/-- U7, free (log entry 11): what a read of `OUT_LEN` returns while BUSY. -/
opaque freeOutLen : Nat → Len49

end Sys2Proof.Config
end

