-- ==== Sys2Proof/Syntax.lean ====
section
/-! DEFINITION. The instructions: one constructor per row of spec/opcode_table.json. -/

namespace Sys2Proof

/-- The symbols DEC executes (30_encoding.md R91 to R96, R104). Each operand has the width its field has. -/
inductive Instr where
  /-- HDR3: document index 0, carries `hval[47:36]` (R96). -/
  | hdr3 (h : Sym)
  /-- HDR2: document index 1, carries `hval[35:24]` (R96). -/
  | hdr2 (h : Sym)
  /-- HDR1: document index 2, carries `hval[23:12]` (R96). -/
  | hdr1 (h : Sym)
  /-- HDR0: document index 3, carries `hval[11:0]` (R96). -/
  | hdr0 (h : Sym)
  /-- LIT: one literal byte (R93). -/
  | lit (byte : Byte)
  /-- ZRUN: a run of 0x00 bytes (R94). -/
  | zrun (len : RunLen)
  /-- FRUN: a run of 0xFF bytes (R94). -/
  | frun (len : RunLen)
  /-- PRUN: the head of a three-symbol run of a byte pair (R94, R95). -/
  | prun (len : RunLen)
  /-- PAT0: the first byte of the pair (R95). -/
  | pat0 (byte : Byte)
  /-- PAT1: the second byte of the pair (R95). -/
  | pat1 (byte : Byte)
  /-- RSV_100: reserved, 0x100..0x1FF at a token's first index (R104). -/
  | rsv100 (x : Byte)
  /-- RSV_200: reserved, 0x200..0x2FF at a token's first index (R104). -/
  | rsv200 (x : Byte)
  /-- RSV_300: reserved, 0x300..0x3FF at a token's first index (R104). -/
  | rsv300 (x : Byte)
deriving DecidableEq, Repr

end Sys2Proof
end

