-- ==== Sys2Proof/WellFormed.lean ====
section
/-! DEFINITION. Where a symbol may stand (30_encoding.md R97), and which instructions and documents are well formed. -/

namespace Sys2Proof

/-- R97: the positions of a document. Position, never value, decides a symbol's format. -/
inductive Position where
  /-- document index 0 -/
  | hdr3
  /-- document index 1 -/
  | hdr2
  /-- document index 2 -/
  | hdr1
  /-- document index 3 -/
  | hdr0
  /-- the first index of a token, at document index 4 or later -/
  | token
  /-- the index after a PRUN head -/
  | pat0
  /-- the second index after a PRUN head -/
  | pat1
deriving DecidableEq, Repr

/-- The position an instruction stands in (the `context` of its row of the opcode table). -/
def Instr.position : Instr → Position
  | .hdr3 _ => .hdr3
  | .hdr2 _ => .hdr2
  | .hdr1 _ => .hdr1
  | .hdr0 _ => .hdr0
  | .lit _ => .token
  | .zrun _ => .token
  | .frun _ => .token
  | .prun _ => .token
  | .pat0 _ => .pat0
  | .pat1 _ => .pat1
  | .rsv100 _ => .token
  | .rsv200 _ => .token
  | .rsv300 _ => .token

/-- R97, R98: the position that follows an instruction in its document. -/
def Instr.nextPosition : Instr → Position
  | .hdr3 _ => .hdr2
  | .hdr2 _ => .hdr1
  | .hdr1 _ => .hdr0
  | .hdr0 _ => .token
  | .prun _ => .pat0
  | .pat0 _ => .pat1
  | .lit _ => .token
  | .zrun _ => .token
  | .frun _ => .token
  | .pat1 _ => .token
  | .rsv100 _ => .token
  | .rsv200 _ => .token
  | .rsv300 _ => .token

/-- R104: an instruction is well formed when it is not a reserved literal: those encode no token and are never emitted. -/
def Instr.wellFormed : Instr → Bool
  | .rsv100 _ => false
  | .rsv200 _ => false
  | .rsv300 _ => false
  | .hdr3 _ => true
  | .hdr2 _ => true
  | .hdr1 _ => true
  | .hdr0 _ => true
  | .lit _ => true
  | .zrun _ => true
  | .frun _ => true
  | .prun _ => true
  | .pat0 _ => true
  | .pat1 _ => true

/-- A sequence of instructions stands well from position `p`: each in its own position (R97), none of them reserved, and
the sequence stopping only where a token may begin (R69: a PatternRun cut short and a header cut short are malformed). -/
def wellPlaced : Position → List Instr → Bool
  | p, [] => p == .token
  | p, i :: is => i.position == p && i.wellFormed && wellPlaced i.nextPosition is

/-- A well-formed document: four header symbols, then whole tokens (R96, R97, R98). -/
def wellFormedDocument (is : List Instr) : Bool := wellPlaced .hdr3 is

end Sys2Proof
end

