-- ==== Sys2Proof/Decode.lean ====
section
/-! DEFINITION. Code points, symbol fields, the decoder and the encoder (30_encoding.md). -/

namespace Sys2Proof

/-- Why the decoder refuses. Both are raised as failures by DEC, never skipped (R103, R105). -/
inductive DecodeError where
  /-- R103: the code point is outside [0xE000, 0xEFFF]. -/
  | outOfRangeCodePoint
  /-- R105: a symbol in a PAT position has bits [11:8] that are not all zero. -/
  | reservedPattern
deriving DecidableEq, Repr

/-! ### Fields of a symbol -/

/-- R92: the tag field, bits [11:10]. -/
def symTag (w : Sym) : BitVec 2 := w.extractLsb' 10 2

/-- R91: bits [9:8], zero in a literal. -/
def symHigh (w : Sym) : BitVec 2 := w.extractLsb' 8 2

/-- R94, R99: the length field of a run head, bits [9:0]. -/
def symLen (w : Sym) : RunLen := w.extractLsb' 0 10

/-- R101: the byte payload, bits [7:0]. -/
def symByte (w : Sym) : Byte := w.extractLsb' 0 8

/-- R95: bits [11:8], zero in a pattern payload. -/
def symTop (w : Sym) : BitVec 4 := w.extractLsb' 8 4

/-! ### Code points -/

/-- TOCP (R102, R187): the code point of a symbol. -/
def codePoint (s : Sym) : CPOut := 0xE000#16 + s.setWidth 16

/-- R103: the accepted range of code points. -/
def inRange (c : CPIn) : Bool := decide (Config.cpBase ≤ c) && decide (c ≤ Config.cpLast)

/-- FROMCP (R102, R103, R190): the symbol of an accepted code point. -/
def fromCodePoint (c : CPIn) : Except DecodeError Sym :=
  if inRange c then .ok ((c - Config.cpBase).setWidth 12) else .error .outOfRangeCodePoint

/-! ### The decoder -/

/-- R95, R105: the byte of a pattern payload, nothing for a reserved one. -/
def patternByte (w : Sym) : Option Byte :=
  if symTop w = 0#4 then some (symByte w) else none

/-- R92, R104, R191: the instruction at a token's first index, by tag. Total: exactly one case applies. -/
def decodeToken (w : Sym) : Instr :=
  if symTag w = 0b01#2 then .zrun (symLen w)
  else if symTag w = 0b10#2 then .frun (symLen w)
  else if symTag w = 0b11#2 then .prun (symLen w)
  else if symHigh w = 0b01#2 then .rsv100 (symByte w)
  else if symHigh w = 0b10#2 then .rsv200 (symByte w)
  else if symHigh w = 0b11#2 then .rsv300 (symByte w)
  else .lit (symByte w)

/-- R97: the instruction a symbol is in a position. Total on every symbol in every position; refuses by name. -/
def decodeSym : Position → Sym → Except DecodeError Instr
  | .hdr3, w => .ok (.hdr3 w)
  | .hdr2, w => .ok (.hdr2 w)
  | .hdr1, w => .ok (.hdr1 w)
  | .hdr0, w => .ok (.hdr0 w)
  | .token, w => .ok (decodeToken w)
  | .pat0, w =>
    match patternByte w with
    | some b => .ok (.pat0 b)
    | none => .error .reservedPattern
  | .pat1, w =>
    match patternByte w with
    | some b => .ok (.pat1 b)
    | none => .error .reservedPattern

/-- The instruction a code point is in a position: FROMCP (R190), then the position's format (R97). -/
def decodeCodePoint (p : Position) (c : CPIn) : Except DecodeError Instr :=
  match fromCodePoint c with
  | .ok w => decodeSym p w
  | .error e => .error e

/-- R97, R98, R112: left to right, each instruction giving the next one's position. -/
def decodeFrom : Position → List Sym → Except DecodeError (List Instr)
  | _, [] => .ok []
  | p, w :: ws =>
    match decodeSym p w with
    | .error e => .error e
    | .ok i =>
      match decodeFrom i.nextPosition ws with
      | .error e => .error e
      | .ok is => .ok (i :: is)

/-- The instructions of a whole document: positions from index 0. -/
def decodeDocument (ws : List Sym) : Except DecodeError (List Instr) := decodeFrom .hdr3 ws

/-- The code point whose symbol has the bits `w`, where `w` is a symbol. -/
def tableCodePoint (w : Nat) : CPIn := BitVec.ofNat 21 (0xE000 + w)

/-- The host's question: the instruction the decoder reads from the bits `w` of a table row, laid out as the hardware
stores a symbol (one code point) AT A TOKEN'S FIRST INDEX. DEDUCED (log entry 13): a word alone has no position, and
R97 says that position decides; the rows HDR3..HDR0, PAT0 and PAT1 share their words with LIT and others. -/
def decodeTableWord (_nbits w : Nat) : Option Instr :=
  if w < 4096 then
    match decodeCodePoint .token (tableCodePoint w) with
    | .ok i => some i
    | .error _ => none
  else none

/-! ### The encoder -/

/-- R93 to R96, R104: the symbol of an instruction, every bit from the spec's layout. -/
def encodeSym : Instr → Sym
  | .hdr3 h => h
  | .hdr2 h => h
  | .hdr1 h => h
  | .hdr0 h => h
  | .lit b => (0b0000#4 ++ b : BitVec (4 + 8))
  | .zrun len => (0b01#2 ++ len : BitVec (2 + 10))
  | .frun len => (0b10#2 ++ len : BitVec (2 + 10))
  | .prun len => (0b11#2 ++ len : BitVec (2 + 10))
  | .pat0 b => (0b0000#4 ++ b : BitVec (4 + 8))
  | .pat1 b => (0b0000#4 ++ b : BitVec (4 + 8))
  | .rsv100 x => (0b0001#4 ++ x : BitVec (4 + 8))
  | .rsv200 x => (0b0010#4 ++ x : BitVec (4 + 8))
  | .rsv300 x => (0b0011#4 ++ x : BitVec (4 + 8))

/-- The words of an instruction: every instruction is one symbol (R90). -/
def encode (i : Instr) : List Sym := [encodeSym i]

/-- The words of a sequence of instructions. -/
def encodeDocument (is : List Instr) : List Sym := is.flatMap encode

end Sys2Proof
end

