-- ==== Sys2Proof/Machine/State.lean ====
section
/-! DEFINITION. The state of SSCORE as plain data (10_state.md R20 to R45, 20_memory.md R60), the failure kinds
(60_exceptions.md R281), the reasons a step stops, and the state after reset (R43, R320). -/

namespace Sys2Proof.Machine

/-- R281: the kinds of failure of a decode call. -/
inductive FailureKind where
  /-- code 1: fewer than four symbols (R282) -/
  | malformedHeader
  /-- code 2: a code point outside [0xE000, 0xEFFF] (R283) -/
  | outOfRangeSymbol
  /-- code 3: bytes produced differ in number from the header value (R284) -/
  | lengthMismatch
  /-- code 4: never raised (R286) -/
  | emptyInput
  /-- code 5: a reserved symbol, or a PatternRun token cut short (R285) -/
  | malformedBody
deriving DecidableEq, Repr

/-- R32: the four values of `STATUS.STATE`. -/
inductive CallState where
  /-- 0: no call since reset -/
  | idle
  /-- 1: a call is in progress -/
  | busy
  /-- 2: the last call succeeded -/
  | done
  /-- 3: the last call failed -/
  | failed
deriving DecidableEq, Repr

/-- R36: ENC `PHASE`. -/
inductive EncPhase where
  /-- 0 HEADER -/
  | header
  /-- 1 BODY -/
  | body
  /-- 2 END -/
  | ended
deriving DecidableEq, Repr

/-- R37: DEC `PHASE`. -/
inductive DecPhase where
  /-- 0 MAP -/
  | map
  /-- 1 HEADER -/
  | header
  /-- 2 UNPACK -/
  | unpack
  /-- 3 EXPAND -/
  | expand
  /-- 4 VERIFY -/
  | verify
  /-- 5 END -/
  | ended
deriving DecidableEq, Repr

/-- R36: the ENC working registers. -/
structure EncRegs where
  /-- `N`: the input length in bytes -/
  n : Len48
  /-- `CUR`: index in `IB` of the next byte no token covers (R38) -/
  cur : Len48
  /-- `PHASE` -/
  phase : EncPhase
  /-- `HCNT`: header symbols already emitted -/
  hcnt : BitVec 3
  /-- `RLEN`: units of the run being emitted that are not yet packed -/
  rlen : Len48
  /-- `RKIND`: the run's kind, by its tag value -/
  rkind : BitVec 2
  /-- `P0` -/
  p0 : Byte
  /-- `P1` -/
  p1 : Byte
  /-- `PSUB`: which symbol of a PatternRun token is next -/
  psub : BitVec 2
  /-- `OCNT`: code points appended to `OC` so far -/
  ocnt : Len49
deriving DecidableEq, Repr

/-- R37: the DEC working registers. `HDR` is held as its four 12-bit fields of R96. -/
structure DecRegs where
  /-- `M`: the input length in code points -/
  m : Len49
  /-- `MCUR`: index of the next code point MAP has not checked -/
  mcur : Len49
  /-- `SCUR`: index of the next code point not consumed (R39) -/
  scur : Len49
  /-- `PHASE` -/
  phase : DecPhase
  /-- `HDR[47:36]` -/
  hdr3 : Sym
  /-- `HDR[35:24]` -/
  hdr2 : Sym
  /-- `HDR[23:12]` -/
  hdr1 : Sym
  /-- `HDR[11:0]` -/
  hdr0 : Sym
  /-- `OCNT`: bytes appended to `OB` so far, modulo 2^48 -/
  ocnt : Len48
  /-- `OVF`: sticky, the byte count has exceeded 2^48 - 1 -/
  ovf : Bool
  /-- `RLEN`: units of the current run not yet expanded -/
  rlen : RunLen
  /-- `RKIND`: the run's kind, by its tag value -/
  rkind : BitVec 2
  /-- `P0` -/
  p0 : Byte
  /-- `P1` -/
  p1 : Byte
  /-- `PSUB`: which byte of the pair is next -/
  psub : BitVec 1
deriving DecidableEq, Repr

/-- R29, R60: the four buffer spaces. `ib` and `ic` list the elements the host has placed, by rising index; an index
not listed has no value (log entry 5). `oc` and `ob` list the appended elements in emission order (R62). -/
structure Memory where
  /-- `IB`: the input bytes of an encode call -/
  ib : List Host.Cell
  /-- `IC`: the input code points of a decode call -/
  ic : List (Nat × CPIn)
  /-- `OC`: the output code points of an encode call -/
  oc : List CPOut
  /-- `OB`: the output bytes of a decode call -/
  ob : List Byte
deriving DecidableEq, Repr

/-- R30: the host-visible registers. -/
inductive HostReg where
  /-- `CTRL`: MODE [0], START [1] -/
  | ctrl
  /-- `STATUS`: STATE [1:0] -/
  | status
  /-- `ERR`: CODE [2:0] -/
  | err
  /-- `IN_LEN` -/
  | inLen
  /-- `OUT_LEN` -/
  | outLen
deriving DecidableEq, Repr

/-- What the host can do to the machine (R30, R60, R249 to R254, R320, R322). -/
inductive HostCmd where
  /-- write a register (R30) -/
  | writeReg (r : HostReg) (v : RegWord)
  /-- read a register (R30) -/
  | readReg (r : HostReg)
  /-- place a byte of the encode input (R60) -/
  | writeIB (i : Len48) (b : Byte)
  /-- place a code point of the decode input (R60) -/
  | writeIC (i : Len49) (c : CPIn)
  /-- read a code point of the encode output (R60) -/
  | readOC (i : Len49)
  /-- read a byte of the decode output (R60) -/
  | readOB (i : Len48)
  /-- read `STATUS.STATE` until it is DONE or FAILED (R322 step 4) -/
  | waitDone
  /-- the host takes no step while the engine takes one (log entry 2) -/
  | letEngine
  /-- power-on reset (R320) -/
  | reset
deriving DecidableEq, Repr

/-- The machine: the host-visible registers (R30), the working registers of both engines (R36, R37), the buffers (R60),
and three fields of the model's own: the host's script, the host's last read and the counter of free values. -/
structure State where
  /-- `CTRL.MODE`: 0 encode, 1 decode (R31); while BUSY it names the active engine -/
  mode : BitVec 1
  /-- `STATUS.STATE` (R32) -/
  callState : CallState
  /-- `ERR.CODE` (R33) -/
  errCode : BitVec 3
  /-- `IN_LEN` (R34) -/
  inLen : Len49
  /-- `OUT_LEN` (R35) -/
  outLen : Len49
  /-- ENC's working registers (R36) -/
  enc : EncRegs
  /-- DEC's working registers (R37) -/
  dec : DecRegs
  /-- the buffers (R60) -/
  mem : Memory
  /-- the MODEL's own (log entry 2): what the host will do, next command first -/
  pending : List HostCmd
  /-- the MODEL's own (log entry 11): the word the host's last read returned -/
  readData : RegWord
  /-- the MODEL's own (log entry 6): the counter that free values are drawn with -/
  freeCount : Nat
deriving DecidableEq, Repr

/-- Why the machine stops with a fault. -/
inductive Fault where
  /-- Raised by an engine's read of an input element, below `IN_LEN`, that the host never placed (U4, R61). Safe: the
  model stops where a real buffer delivers some value. -/
  | inputNotPlaced
  /-- Raised in a BUSY state where R257 and R258 enable no step. No run from reset gets there. Safe: the model stops. -/
  | noEnabledStep
deriving DecidableEq, Repr

/-- Why a step is refused. -/
inductive Refusal where
  /-- Raised by exec for an instruction with no meaning yet. Safe: nothing is claimed of it. -/
  | notModelled (mnemonic : String)
  /-- Raised by a START in encode mode with `IN_LEN` at 2^48 or more (U3, R34, H3). Safe: the spec makes no claim. -/
  | encodeTooLong
  /-- Raised by a host write of `IB` or `IC` while BUSY (U8, R72, H2). Safe: the spec makes no claim. -/
  | inputWriteWhileBusy
  /-- Raised by a reset while BUSY (U5, R320). Safe: the spec makes no claim. -/
  | resetWhileBusy
deriving DecidableEq, Repr

/-- R43: unspecified after reset. DESIGN CHOICE (log entry 4): all zero. -/
def EncRegs.reset : EncRegs :=
  { n := 0, cur := 0, phase := .header, hcnt := 0, rlen := 0, rkind := 0, p0 := 0, p1 := 0, psub := 0, ocnt := 0 }

/-- R43: unspecified after reset. DESIGN CHOICE (log entry 4): all zero. -/
def DecRegs.reset : DecRegs :=
  { m := 0, mcur := 0, scur := 0, phase := .map, hdr3 := 0, hdr2 := 0, hdr1 := 0, hdr0 := 0, ocnt := 0, ovf := false,
    rlen := 0, rkind := 0, p0 := 0, p1 := 0, psub := 0 }

/-- R43: the buffers are unspecified after reset. DESIGN CHOICE (log entry 5): nothing placed, nothing appended. -/
def Memory.reset : Memory := { ib := [], ic := [], oc := [], ob := [] }

/-- R43, R320: power-on reset. The host-visible registers are the spec's; the rest is the model's (log entries 2, 4, 5,
6, 11). -/
def State.reset : State :=
  { mode := 0, callState := .idle, errCode := 0, inLen := 0, outLen := 0, enc := EncRegs.reset, dec := DecRegs.reset,
    mem := Memory.reset, pending := [], readData := 0, freeCount := 0 }

/-- The outcome of a step of this machine. -/
abbrev Result := Host.Outcome State Fault Refusal

end Sys2Proof.Machine
end

