-- ==== Sys2Proof/Machine/Ops.lean ====
section
/-! DEFINITION. The named operations over buffers and registers: MemRead and Append (20_memory.md R61, R62), the host's
placing of elements, failure entry (60_exceptions.md R288), the leaving of it by START (R290, R250) and completion
(44_orchestration.md R251). -/

namespace Sys2Proof.Machine

/-! ### Buffers -/

/-- The value at an index of a sparse buffer; nothing where the host placed no element (log entry 5). -/
def lookup {w : Nat} : List (Nat × BitVec w) → Nat → Option (BitVec w)
  | [], _ => none
  | (j, v) :: t, i => if j = i then some v else lookup t i

/-- Placing an element: the list stays in rising order of index, one entry an index. -/
def place {w : Nat} : List (Nat × BitVec w) → Nat → BitVec w → List (Nat × BitVec w)
  | [], i, v => [(i, v)]
  | (j, u) :: t, i, v =>
    if i < j then (i, v) :: (j, u) :: t
    else if i = j then (i, v) :: t
    else (j, u) :: place t i v

/-- The values at indices `i`, `i+1`, .. up to `n` elements of a sparse buffer whose entries before `i` are gone; nothing
where one of them was never placed. -/
def sliceFrom {w : Nat} : List (Nat × BitVec w) → Nat → Nat → Option (List (BitVec w))
  | _, _, 0 => some []
  | [], _, _ + 1 => none
  | (j, v) :: t, i, n + 1 =>
    if j = i then
      match sliceFrom t (i + 1) n with
      | some vs => some (v :: vs)
      | none => none
    else none

/-- R61: `MemRead(IB, i)`. -/
def State.readIB (s : State) (i : Nat) : Option Byte := lookup s.mem.ib i

/-- R61: `MemRead(IC, i)`. -/
def State.readIC (s : State) (i : Nat) : Option CPIn := lookup s.mem.ic i

/-- `IB[0..n)`: the input Byte Buffer of an encode call (R29, R250), when the host has placed all of it (U4). -/
def State.inputBytes (s : State) (n : Nat) : Option (List Byte) := sliceFrom s.mem.ib 0 n

/-- `IC[0..n)`: the input code points of a decode call (R29, R250), when the host has placed all of it (U4). -/
def State.inputCodePoints (s : State) (n : Nat) : Option (List CPIn) := sliceFrom s.mem.ic 0 n

/-- The host places a byte of `IB` (R60). -/
def State.placeIB (s : State) (i : Nat) (b : Byte) : State := { s with mem := { s.mem with ib := place s.mem.ib i b } }

/-- The host places a code point of `IC` (R60). -/
def State.placeIC (s : State) (i : Nat) (c : CPIn) : State := { s with mem := { s.mem with ic := place s.mem.ic i c } }

/-- R62: `Append(OC, c)`. -/
def State.appendOC (s : State) (c : CPOut) : State := { s with mem := { s.mem with oc := s.mem.oc ++ [c] } }

/-- R62: `Append(OB, b)`. -/
def State.appendOB (s : State) (b : Byte) : State := { s with mem := { s.mem with ob := s.mem.ob ++ [b] } }

/-- An input buffer is in its one canonical form: indices strictly rising, each below the space's bound (R60). An index
not listed has no value, so no entry can equal it. -/
abbrev Canonical {w : Nat} (bound : Nat) (b : List (Nat × BitVec w)) : Prop :=
  b.Pairwise (fun x y => x.1 < y.1) ∧ ∀ x ∈ b, x.1 < bound

/-- The canonical form of the whole memory. The output sequences have only one form. -/
abbrev Memory.wf (m : Memory) : Prop := Canonical (2 ^ 48) m.ib ∧ Canonical (2 ^ 49) m.ic

/-! ### Registers -/

/-- Write ENC's working registers. -/
def State.setEnc (s : State) (e : EncRegs) : State := { s with enc := e }

/-- Write DEC's working registers. -/
def State.setDec (s : State) (d : DecRegs) : State := { s with dec := d }

/-- R37, R100: `HDR`, the 48-bit value of its four fields, most significant first. -/
def DecRegs.hdr (d : DecRegs) : Len48 := (d.hdr3 ++ d.hdr2 ++ d.hdr1 ++ d.hdr0 : BitVec (12 + 12 + 12 + 12))

/-- R281: the code of a failure kind. -/
def FailureKind.code : FailureKind → BitVec 3
  | .malformedHeader => 1#3
  | .outOfRangeSymbol => 2#3
  | .lengthMismatch => 3#3
  | .emptyInput => 4#3
  | .malformedBody => 5#3

/-- R32: the value of `STATUS.STATE`. -/
def CallState.value : CallState → BitVec 2
  | .idle => 0#2
  | .busy => 1#2
  | .done => 2#2
  | .failed => 3#2

/-! ### Failure entry and completion -/

/-- R288: failure entry, in one indivisible step. Nothing is saved, nothing is masked and no handler runs; there is no
return from it (R290): FAILED is left by `startEnc` or `startDec`. -/
def State.failCall (s : State) (k : FailureKind) : State :=
  { s with errCode := k.code, outLen := 0, callState := .failed, dec := { s.dec with phase := .ended } }

/-- E.END's writes (R251, R257). -/
def State.finishEnc (s : State) : State :=
  { s with enc := { s.enc with phase := .ended }, outLen := s.enc.ocnt, errCode := 0, callState := .done }

/-- D.VER's writes on success (R251, R258). -/
def State.finishDec (s : State) : State :=
  { s with dec := { s.dec with phase := .ended }, outLen := s.dec.ocnt.setWidth 49, errCode := 0, callState := .done }

/-! ### START -/

/-- R321, R43: ENC's registers at START. `RKIND`, `P0`, `P1` are unspecified there: free values (log entry 6). -/
def EncRegs.start (inLen : Len49) (k : Nat) : EncRegs :=
  { n := inLen.setWidth 48, cur := 0, phase := .header, hcnt := 0, rlen := 0, rkind := Config.freeKind k,
    p0 := Config.freeByte k, p1 := Config.freeByte (k + 1), psub := 0, ocnt := 0 }

/-- R321, R43: DEC's registers at START. `HDR`, `RKIND`, `P0`, `P1` are unspecified there: free values (log entry 6). -/
def DecRegs.start (inLen : Len49) (k : Nat) : DecRegs :=
  { m := inLen, mcur := 0, scur := 0, phase := .map, hdr3 := Config.freeSym k, hdr2 := Config.freeSym (k + 1),
    hdr1 := Config.freeSym (k + 2), hdr0 := Config.freeSym (k + 3), ocnt := 0, ovf := false, rlen := 0,
    rkind := Config.freeKind k, p0 := Config.freeByte k, p1 := Config.freeByte (k + 1), psub := 0 }

/-- R250: what START writes whichever engine it starts. Both output buffers are emptied (R43; log entry 7). -/
def State.beginCall (s : State) : State :=
  { s with callState := .busy, errCode := 0, outLen := 0, mem := { s.mem with oc := [], ob := [] } }

/-- R250 with `MODE = 0`. -/
def State.startEnc (s : State) : State :=
  { s.beginCall with enc := EncRegs.start s.inLen s.freeCount, freeCount := s.freeCount + 2 }

/-- R250 with `MODE = 1`. -/
def State.startDec (s : State) : State :=
  { s.beginCall with dec := DecRegs.start s.inLen s.freeCount, freeCount := s.freeCount + 4 }

/-- R250: START while not BUSY. U3: an encode of 2^48 bytes or more is refused (log entry 8). -/
def State.start (s : State) : Result :=
  if s.mode = 0#1 then
    if 2 ^ 48 ≤ s.inLen.toNat then .refused .encodeTooLong else .next s.startEnc
  else .next s.startDec

/-! ### Outcomes -/

/-- One thing after another within a step: stops at the first fault or refusal. -/
def andThen (r : Result) (f : State → Result) : Result :=
  match r with
  | .next s => f s
  | .fault e => .fault e
  | .refused e => .refused e

end Sys2Proof.Machine
end

