-- ==== Sys2Proof/Machine/Flags.lean ====
section
/-! DEFINITION. SSCORE has no condition codes (10_state.md R40). Its one flag computation is the byte count with its sticky
overflow flag `OVF` (41_decompressor.md R170). -/

namespace Sys2Proof.Machine

/-- R170: `count`, the update of `OCNT` and `OVF` that goes with every Append to `OB`. -/
def DecRegs.count (d : DecRegs) : DecRegs :=
  { d with ovf := d.ovf || decide (d.ocnt = 0xFFFFFFFFFFFF#48), ocnt := d.ocnt + 1 }

/-- R258: `Append(OB, b); count`. -/
def State.emitByte (s : State) (b : Byte) : State := (s.appendOB b).setDec s.dec.count

/-- R257: `Append(OC, 0xE000 + w); OCNT <- OCNT + 1`. -/
def State.emitSymbol (s : State) (w : Sym) : State :=
  (s.appendOC (codePoint w)).setEnc { s.enc with ocnt := s.enc.ocnt + 1 }

/-- R243: the length check's condition, `OVF == 1 or OCNT != HDR`. -/
def DecRegs.mismatch (d : DecRegs) : Bool := d.ovf || decide (d.ocnt ≠ d.hdr)

end Sys2Proof.Machine
end

