-- ==== Sys2Proof/Machine/Operands.lean ====
section
/-! DEFINITION. How DEC reads the symbols its instructions stand in and take as operands (42_packer_unpacker.md R190, R195;
44_orchestration.md R258, `s(j) = c[j] - 0xE000`). -/

namespace Sys2Proof.Machine

/-- Read the symbol at index `j` of `IC` and go on with it. An element the host never placed faults (U4). An element out
of range raises `OutOfRangeSymbol` (R190); after the MAP phase there is none (log entry 16). -/
def withSymbol (s : State) (j : Nat) (go : Sym → Result) : Result :=
  match s.readIC j with
  | none => .fault .inputNotPlaced
  | some c =>
    match fromCodePoint c with
    | .error _ => .next (s.failCall .outOfRangeSymbol)
    | .ok w => go w

/-- R195: the two PAT symbols after a PRUN head at index `j`. The bound is tested before either is read; fewer than two
symbols, or a reserved one (R105), raises `MalformedBody`. -/
def withPattern (s : State) (j : Nat) (go : Byte → Byte → Result) : Result :=
  if s.dec.m.toNat ≤ j + 2 then .next (s.failCall .malformedBody)
  else
    withSymbol s (j + 1) fun a =>
    withSymbol s (j + 2) fun c =>
    match patternByte a, patternByte c with
    | some p0, some p1 => go p0 p1
    | _, _ => .next (s.failCall .malformedBody)

end Sys2Proof.Machine
end

