-- ==== Sys2Proof/Machine/Body.lean ====
section
/-! DEFINITION. The meanings of LIT, ZRUN, FRUN, PRUN, PAT0, PAT1 (42_packer_unpacker.md R192 to R195; 44_orchestration.md
R258, step D.TOK). A run head loads the run; the steps D.EXP expand it (41_decompressor.md R163 to R165). -/

namespace Sys2Proof.Machine

/-- R258: a run head's load: `RKIND`, `RLEN`, `SCUR <- SCUR + 1`. -/
def DecRegs.loadRun (d : DecRegs) (kind : BitVec 2) (len : RunLen) : DecRegs :=
  { d with rkind := kind, rlen := len, scur := d.scur + 1 }

/-- LIT (R192, R162): append the byte, count it, advance `SCUR` by 1. -/
def execLit (b : Byte) (s : State) : Result :=
  let t := s.emitByte b
  .next (t.setDec { t.dec with scur := t.dec.scur + 1 })

/-- ZRUN (R193): a run of `len` zero bytes; `PHASE <- EXPAND`. -/
def execZrun (len : RunLen) (s : State) : Result :=
  .next (s.setDec { s.dec.loadRun 0b01#2 len with phase := .expand })

/-- FRUN (R194): a run of `len` 0xFF bytes; `PHASE <- EXPAND`. -/
def execFrun (len : RunLen) (s : State) : Result :=
  .next (s.setDec { s.dec.loadRun 0b10#2 len with phase := .expand })

/-- PAT0 (R195): `P0 <- byte`, advance `SCUR` by 1. -/
def execPat0 (b : Byte) (s : State) : Result :=
  .next (s.setDec { s.dec with p0 := b, scur := s.dec.scur + 1 })

/-- PAT1 (R195): `P1 <- byte`, advance `SCUR` by 1; the token is complete: `PSUB <- 0; PHASE <- EXPAND`. -/
def execPat1 (b : Byte) (s : State) : Result :=
  .next (s.setDec { s.dec with p1 := b, psub := 0, scur := s.dec.scur + 1, phase := .expand })

/-- PRUN (U.PRUN, R195): the whole three-symbol token, one operation of the Unpacker. The two symbols after the head are
tested first, so a failing token changes nothing but the failure's own registers; then the head is loaded and PAT0 and
PAT1 run. -/
def execPrun (len : RunLen) (s : State) : Result :=
  withPattern s s.dec.scur.toNat fun p0 p1 =>
    andThen (execPat0 p0 (s.setDec (s.dec.loadRun 0b11#2 len))) (execPat1 p1)

end Sys2Proof.Machine
end

