-- ==== Sys2Proof/Machine/Header.lean ====
section
/-! DEFINITION. The meanings of HDR3, HDR2, HDR1, HDR0 (43_header_codec.md R223; 30_encoding.md R96, R100). The step D.HDR
runs the four in this order. -/

namespace Sys2Proof.Machine

/-- R223, R224: a header symbol is read only from a document of at least four symbols; otherwise `MalformedHeader`. -/
def headerSymbol (s : State) (d : DecRegs) : Result :=
  if s.dec.m.toNat < Config.headerSymbols then .next (s.failCall .malformedHeader) else .next (s.setDec d)

/-- HDR3: `HDR[47:36] <- h`. -/
def execHdr3 (h : Sym) (s : State) : Result := headerSymbol s { s.dec with hdr3 := h, scur := 1 }

/-- HDR2: `HDR[35:24] <- h`. -/
def execHdr2 (h : Sym) (s : State) : Result := headerSymbol s { s.dec with hdr2 := h, scur := 2 }

/-- HDR1: `HDR[23:12] <- h`. -/
def execHdr1 (h : Sym) (s : State) : Result := headerSymbol s { s.dec with hdr1 := h, scur := 3 }

/-- HDR0: `HDR[11:0] <- h`; the header is complete: `SCUR <- 4; PHASE <- UNPACK`. -/
def execHdr0 (h : Sym) (s : State) : Result := headerSymbol s { s.dec with hdr0 := h, scur := 4, phase := .unpack }

end Sys2Proof.Machine
end

