-- ==== Sys2Proof/Machine/Reserved.lean ====
section
/-! DEFINITION. The meanings of RSV_100, RSV_200, RSV_300: U.RSV raises `MalformedBody`, always (42_packer_unpacker.md R196). -/

namespace Sys2Proof.Machine

/-- RSV_100 (R196). -/
def execRsv100 (_x : Byte) (s : State) : Result := .next (s.failCall .malformedBody)

/-- RSV_200 (R196). -/
def execRsv200 (_x : Byte) (s : State) : Result := .next (s.failCall .malformedBody)

/-- RSV_300 (R196). -/
def execRsv300 (_x : Byte) (s : State) : Result := .next (s.failCall .malformedBody)

end Sys2Proof.Machine
end

