-- ==== Sys2Proof/Machine/Dispatch.lean ====
section
/-! DEFINITION. exec: one arm per constructor of Instr. -/

namespace Sys2Proof.Machine

def exec (i : Instr) (s : State) : Host.Outcome State Fault Refusal :=
  match i with
  | .hdr3 h => Sys2Proof.Machine.execHdr3 h s
  | .hdr2 h => Sys2Proof.Machine.execHdr2 h s
  | .hdr1 h => Sys2Proof.Machine.execHdr1 h s
  | .hdr0 h => Sys2Proof.Machine.execHdr0 h s
  | .lit byte => Sys2Proof.Machine.execLit byte s
  | .zrun len => Sys2Proof.Machine.execZrun len s
  | .frun len => Sys2Proof.Machine.execFrun len s
  | .prun len => Sys2Proof.Machine.execPrun len s
  | .pat0 byte => Sys2Proof.Machine.execPat0 byte s
  | .pat1 byte => Sys2Proof.Machine.execPat1 byte s
  | .rsv100 x => Sys2Proof.Machine.execRsv100 x s
  | .rsv200 x => Sys2Proof.Machine.execRsv200 x s
  | .rsv300 x => Sys2Proof.Machine.execRsv300 x s

end Sys2Proof.Machine
end

