-- ==== Sys2Proof/Machine/DecEngine.lean ====
section
/-! DEFINITION. DEC's step machine (44_orchestration.md R258). Its program is `IC`: D.HDR and D.TOK run instructions by
`exec`. -/

namespace Sys2Proof.Machine

/-- D.MAP: range-check one code point, or go on to HEADER. -/
def decMap (s : State) : Result :=
  if s.dec.mcur = s.dec.m then .next (s.setDec { s.dec with phase := .header })
  else
    match s.readIC s.dec.mcur.toNat with
    | none => .fault .inputNotPlaced
    | some c =>
      if inRange c then .next (s.setDec { s.dec with mcur := s.dec.mcur + 1 })
      else .next (s.failCall .outOfRangeSymbol)

/-- D.HDR: `MalformedHeader` for fewer than four symbols, else the four header instructions in order (R223). -/
def decHdr (s : State) : Result :=
  if s.dec.m.toNat < Config.headerSymbols then .next (s.failCall .malformedHeader)
  else
    withSymbol s 0 fun w3 =>
    withSymbol s 1 fun w2 =>
    withSymbol s 2 fun w1 =>
    withSymbol s 3 fun w0 =>
    andThen (exec (.hdr3 w3) s) fun s => andThen (exec (.hdr2 w2) s) fun s => andThen (exec (.hdr1 w1) s) fun s =>
      exec (.hdr0 w0) s

/-- D.TOK: fetch the symbol at `SCUR`, decode it at a token's first index, run it. -/
def decTok (s : State) : Result :=
  withSymbol s s.dec.scur.toNat fun w =>
    match decodeSym .token w with
    | .ok i => exec i s
    | .error _ => .next (s.failCall .malformedBody)

/-- D.EXP: one byte of the current run, or back to UNPACK (R163 to R165). -/
def decExp (s : State) : Result :=
  if s.dec.rlen = 0 then .next (s.setDec { s.dec with phase := .unpack })
  else if s.dec.rkind = 1 then
    let t := s.emitByte 0x00#8
    .next (t.setDec { t.dec with rlen := t.dec.rlen - 1 })
  else if s.dec.rkind = 2 then
    let t := s.emitByte 0xFF#8
    .next (t.setDec { t.dec with rlen := t.dec.rlen - 1 })
  else if s.dec.psub = 0 then
    let t := s.emitByte s.dec.p0
    .next (t.setDec { t.dec with psub := 1 })
  else
    let t := s.emitByte s.dec.p1
    .next (t.setDec { t.dec with psub := 0, rlen := t.dec.rlen - 1 })

/-- D.VER: the length check (R243), then completion (R251). -/
def decVer (s : State) : Result :=
  if s.dec.mismatch then .next (s.failCall .lengthMismatch) else .next s.finishDec

/-- R258: the one enabled step; D.EOB is the passage from UNPACK to VERIFY. -/
def decStep (s : State) : Result :=
  match s.dec.phase with
  | .map => decMap s
  | .header => decHdr s
  | .unpack =>
    if s.dec.scur < s.dec.m then decTok s
    else if s.dec.scur = s.dec.m then .next (s.setDec { s.dec with phase := .verify })
    else .fault .noEnabledStep
  | .expand => decExp s
  | .verify => decVer s
  | .ended => .fault .noEnabledStep

end Sys2Proof.Machine
end

