-- ==== Sys2Proof/Machine/Token.lean ====
section
/-! DEFINITION. Tokens and their expansion: the Decompressor (10_state.md R22; 41_decompressor.md). -/

namespace Sys2Proof.Machine

/-- R22: the kinds of run. -/
inductive Kind where
  /-- a run of 0x00 -/
  | zeroRun
  /-- a run of 0xFF -/
  | ffRun
  /-- a run of the ordered pair `(p0, p1)`; `p0` stands first in the source -/
  | patternRun (p0 p1 : Byte)
deriving DecidableEq, Repr

/-- R22: a token. `len` counts repetitions of the kind's unit and has no upper bound. -/
inductive Token where
  /-- one original byte -/
  | literal (b : Byte)
  /-- a run -/
  | run (kind : Kind) (len : Nat)
deriving DecidableEq, Repr

/-- R161: the sequence a run repeats. -/
def Kind.unit : Kind → List Byte
  | .zeroRun => [0x00#8]
  | .ffRun => [0xFF#8]
  | .patternRun p0 p1 => [p0, p1]

/-- R10: `rep(u, n)`, the sequence `u` repeated `n` times end to end. -/
def rep {α : Type} (u : List α) : Nat → List α
  | 0 => []
  | n + 1 => u ++ rep u n

/-- X.LIT, X.ZERO, X.FF, X.PAT (R162 to R165): the bytes of a token. -/
def Token.expand : Token → List Byte
  | .literal b => [b]
  | .run kind len => rep kind.unit len

/-- R166: the Decompressor. -/
def decompress (ts : List Token) : List Byte := ts.flatMap Token.expand

/-- R167: the byte length of a token. -/
def Token.byteLen : Token → Nat
  | .literal _ => 1
  | .run .zeroRun len => len
  | .run .ffRun len => len
  | .run (.patternRun _ _) len => 2 * len

end Sys2Proof.Machine
end

