-- ==== Sys2Proof/Machine/Compressor.lean ====
section
/-! DEFINITION. The Compressor (40_compressor.md): run measurement, selection, the whole function. -/

namespace Sys2Proof.Machine

/-- The length of the longest run of `v` at the front of a sequence. -/
def leadingCount (v : Byte) : List Byte → Nat
  | [] => 0
  | x :: xs => if x = v then leadingCount v xs + 1 else 0

/-- How many times the pair `(p0, p1)` stands end to end at the front of a sequence, whole pairs only. -/
def leadingPairs (p0 p1 : Byte) : List Byte → Nat
  | x :: y :: rest => if x = p0 ∧ y = p1 then leadingPairs p0 p1 rest + 1 else 0
  | _ => 0

/-- R132: `zcount(b, i)`. -/
def zcount (b : List Byte) (i : Nat) : Nat := leadingCount 0x00#8 (b.drop i)

/-- R133: `fcount(b, i)`. -/
def fcount (b : List Byte) (i : Nat) : Nat := leadingCount 0xFF#8 (b.drop i)

/-- R134: `pcount(b, i)`: the pair is `(b[i], b[i+1])`, and its two bytes may be equal. -/
def pcount (b : List Byte) (i : Nat) : Nat :=
  match b.drop i with
  | p0 :: p1 :: rest => leadingPairs p0 p1 (p0 :: p1 :: rest)
  | _ => 0

/-- R135: the token of the one operation performed at position `i`: C.ZERO (R136), C.FF (R137), C.PAT (R138) or C.LIT
(R139), in this priority, ties taken as runs (R142); nothing at the end of the buffer. -/
def nextToken (b : List Byte) (i : Nat) : Option Token :=
  match b.drop i with
  | [] => none
  | p0 :: rest =>
    if Config.runThreshold ≤ zcount b i then some (.run .zeroRun (zcount b i))
    else if Config.runThreshold ≤ fcount b i then some (.run .ffRun (fcount b i))
    else if Config.runThreshold ≤ pcount b i then some (.run (.patternRun p0 (rest.headD 0)) (pcount b i))
    else some (.literal p0)

/-- R140, R141: scan from position `i`, the cursor advancing by each token's byte length; at most `fuel` tokens. -/
def compressFrom (b : List Byte) : Nat → Nat → List Token
  | 0, _ => []
  | fuel + 1, i =>
    match nextToken b i with
    | none => []
    | some t => t :: compressFrom b fuel (i + t.byteLen)

/-- R141: the Compressor. Each token covers at least one byte, so `|b|` tokens suffice (R140). -/
def compress (b : List Byte) : List Token := compressFrom b b.length 0

end Sys2Proof.Machine
end

