-- ==== Sys2Proof/Machine/HeaderCodec.lean ====
section
/-! DEFINITION. The Header Codec (43_header_codec.md). -/

namespace Sys2Proof.Machine

/-- H.WRITE (R221, R100): four symbols, most significant first. Defined on 48-bit values only (R222). -/
def writeHeader (n : Len48) : List Sym :=
  [n.extractLsb' 36 12, n.extractLsb' 24 12, n.extractLsb' 12 12, n.extractLsb' 0 12]

/-- H.READ (R223, R100): the 48-bit value of the first four symbols and the symbols after them. -/
def readHeader : List Sym → Except FailureKind (Len48 × List Sym)
  | s0 :: s1 :: s2 :: s3 :: rest => .ok ((s0 ++ s1 ++ s2 ++ s3 : BitVec (12 + 12 + 12 + 12)), rest)
  | _ => .error .malformedHeader

end Sys2Proof.Machine
end

