-- ==== Sys2Proof/Machine/EncEngine.lean ====
section
/-! DEFINITION. ENC's step machine (44_orchestration.md R257). -/

namespace Sys2Proof.Machine

/-- E.HDR: the next header symbol. -/
def encHdr (s : State) : Result :=
  match (writeHeader s.enc.n)[s.enc.hcnt.toNat]? with
  | none => .fault .noEnabledStep
  | some w =>
    let t := s.emitSymbol w
    .next (t.setEnc { t.enc with
      hcnt := s.enc.hcnt + 1
      phase := if s.enc.hcnt + 1 = 4#3 then .body else .header })

/-- E.SCAN: the operation R135 selects at `CUR`, over `IB[0..N)` (log entry 19). -/
def encScan (s : State) : Result :=
  match s.inputBytes s.enc.n.toNat with
  | none => .fault .inputNotPlaced
  | some b =>
    match nextToken b s.enc.cur.toNat with
    | none => .fault .noEnabledStep
    | some (.literal x) =>
      let t := s.emitSymbol (encodeSym (.lit x))
      .next (t.setEnc { t.enc with cur := t.enc.cur + 1 })
    | some (.run .zeroRun z) =>
      .next (s.setEnc { s.enc with rkind := 1, rlen := BitVec.ofNat 48 z, cur := s.enc.cur + BitVec.ofNat 48 z })
    | some (.run .ffRun f) =>
      .next (s.setEnc { s.enc with rkind := 2, rlen := BitVec.ofNat 48 f, cur := s.enc.cur + BitVec.ofNat 48 f })
    | some (.run (.patternRun p0 p1) r) =>
      .next (s.setEnc { s.enc with
        rkind := 3, p0 := p0, p1 := p1, rlen := BitVec.ofNat 48 r, cur := s.enc.cur + BitVec.ofNat 48 (2 * r) })

/-- E.RUN: one piece of the run, `min(RLEN, 1023)` units. -/
def encRun (s : State) : Result :=
  let piece := min s.enc.rlen.toNat Config.maxLen
  let t := s.emitSymbol (s.enc.rkind ++ BitVec.ofNat 10 piece : BitVec (2 + 10))
  .next (t.setEnc { t.enc with
    rlen := t.enc.rlen - BitVec.ofNat 48 piece
    psub := if s.enc.rkind = 3#2 then 1 else s.enc.psub })

/-- E.PAT0: the first byte of the pair. -/
def encPat0 (s : State) : Result :=
  let t := s.emitSymbol (encodeSym (.pat0 s.enc.p0))
  .next (t.setEnc { t.enc with psub := 2 })

/-- E.PAT1: the second byte of the pair. -/
def encPat1 (s : State) : Result :=
  let t := s.emitSymbol (encodeSym (.pat1 s.enc.p1))
  .next (t.setEnc { t.enc with psub := 0 })

/-- R257: the one enabled step. -/
def encStep (s : State) : Result :=
  match s.enc.phase with
  | .header => encHdr s
  | .body =>
    if s.enc.psub = 0 then
      if s.enc.rlen ≠ 0 then encRun s
      else if s.enc.cur < s.enc.n then encScan s
      else if s.enc.cur = s.enc.n then .next s.finishEnc
      else .fault .noEnabledStep
    else if s.enc.psub = 1 then encPat0 s
    else if s.enc.psub = 2 then encPat1 s
    else .fault .noEnabledStep
  | .ended => .fault .noEnabledStep

end Sys2Proof.Machine
end

