-- ==== Sys2Proof/Machine/HostPort.lean ====
section
/-! DEFINITION. The host command interface (10_state.md R30 to R35; 44_orchestration.md R249 to R254; 70_reset_and_hazards.md
R320 to R322). -/

namespace Sys2Proof.Machine

/-- R30: what a read of a register returns; bits not listed read 0, START always reads 0 (R31). `OUT_LEN` while BUSY is a
free value (U7, H2; log entry 11). -/
def State.readReg (s : State) : HostReg → RegWord
  | .ctrl => s.mode.setWidth 64
  | .status => s.callState.value.setWidth 64
  | .err => s.errCode.setWidth 64
  | .inLen => s.inLen.setWidth 64
  | .outLen => if s.callState = .busy then (Config.freeOutLen s.freeCount).setWidth 64 else s.outLen.setWidth 64

/-- What a read of `OC[i]` returns: the result of a successful call (R251), else a free value (U6, U7, H5). -/
def State.readOC (s : State) (i : Nat) : CPOut :=
  if s.callState = .done then s.mem.oc.getD i (Config.freeCodePoint s.freeCount) else Config.freeCodePoint s.freeCount

/-- What a read of `OB[i]` returns: the result of a successful call (R251), else a free value (U6, U7, H5). -/
def State.readOB (s : State) (i : Nat) : Byte :=
  if s.callState = .done then s.mem.ob.getD i (Config.freeByte s.freeCount) else Config.freeByte s.freeCount

/-- The host has read the word `v`; the next free value is a fresh one. -/
def State.deliver (s : State) (v : RegWord) : State := { s with readData := v, freeCount := s.freeCount + 1 }

/-- R30, R31: bit 0 of a word written to `CTRL`, the new MODE. -/
def ctrlModeBit (v : RegWord) : BitVec 1 := v.extractLsb' 0 1

/-- R30, R31: bit 1 of a word written to `CTRL`, START. -/
def ctrlStartBit (v : RegWord) : Bool := v.getLsbD 1

/-- A write of `CTRL` while not BUSY: MODE is stored; a 1 in START performs R250. Where one write changes MODE and sets
START, which of the two comes first is open (log entry 3): if START does, the engine is BUSY and the write of MODE is
ignored. -/
def State.writeCtrl (s : State) (v : RegWord) : Result :=
  if ctrlStartBit v then
    if decide (ctrlModeBit v = s.mode) || Config.ctrlModeWrittenFirst then
      State.start { s with mode := ctrlModeBit v }
    else s.start
  else .next { s with mode := ctrlModeBit v }

/-- R30: a register write. While BUSY, and to a read-only register, it is ignored (U14). -/
def State.writeReg (s : State) (r : HostReg) (v : RegWord) : Result :=
  if s.callState = .busy then .next s
  else
    match r with
    | .ctrl => s.writeCtrl v
    | .inLen => .next { s with inLen := v.setWidth 49 }
    | .status => .next s
    | .err => .next s
    | .outLen => .next s

/-- R320: power-on reset, the host's script kept. While BUSY it is refused (U5; log entries 10 and 22). -/
def State.hostReset (s : State) : Result :=
  if s.callState = .busy then .refused .resetWhileBusy
  else .next { State.reset with pending := s.pending, readData := s.readData, freeCount := s.freeCount }

/-- R72, U8: the host places an input element, while not BUSY. -/
def State.hostPlace (s t : State) : Result :=
  if s.callState = .busy then .refused .inputWriteWhileBusy else .next t

/-- What one command of the host does, the command already taken from the script. `waitDone` and `letEngine` do nothing
here: `turn` says when the engines move. -/
def hostAct (c : HostCmd) (s : State) : Result :=
  match c with
  | .writeReg r v => s.writeReg r v
  | .readReg r => .next (s.deliver (s.readReg r))
  | .writeIB i b => s.hostPlace (s.placeIB i.toNat b)
  | .writeIC i c => s.hostPlace (s.placeIC i.toNat c)
  | .readOC i => .next (s.deliver ((s.readOC i.toNat).setWidth 64))
  | .readOB i => .next (s.deliver ((s.readOB i.toNat).setWidth 64))
  | .waitDone => .next (s.deliver (s.readReg .status))
  | .letEngine => .next s
  | .reset => s.hostReset

/-- R322 step 4: the call has ended. -/
def CallState.ended : CallState → Bool
  | .done => true
  | .failed => true
  | .idle => false
  | .busy => false

end Sys2Proof.Machine
end

