-- ==== Sys2Proof/Machine/Turn.lean ====
section
/-! DEFINITION. Who moves: at most one engine, and the host between engine steps (10_state.md R20; log entry 2). And the
placing of one instruction where DEC fetches it (log entry 14). -/

namespace Sys2Proof.Machine

/-- A step of the active engine: the one MODE names while BUSY (R31). In IDLE, DONE and FAILED no engine has an enabled
step (R252, R295): nothing changes (log entry 17). -/
def engineTurn (s : State) : Result :=
  match s.callState with
  | .busy => if s.mode = 0#1 then encStep s else decStep s
  | .idle => .next s
  | .done => .next s
  | .failed => .next s

/-- One step: the host's next command, or a step of the active engine where the host waits or has nothing to do. -/
def turn (s : State) : Result :=
  match s.pending with
  | [] => engineTurn s
  | .letEngine :: rest => engineTurn { s with pending := rest }
  | .waitDone :: rest =>
    if s.callState.ended then hostAct .waitDone { s with pending := rest } else engineTurn s
  | c :: rest => hostAct c { s with pending := rest }

/-- The document that carries one instruction of at most three symbols: four header symbols of 0, the symbol of the bits
`w`, and two symbols of 0 (the longest instruction, PRUN, has two operand symbols). -/
def fetchDocument (w : Nat) : List (Nat × CPIn) :=
  [(0, tableCodePoint 0), (1, tableCodePoint 0), (2, tableCodePoint 0), (3, tableCodePoint 0),
   (4, tableCodePoint w), (5, tableCodePoint 0), (6, tableCodePoint 0)]

/-- `s` inside a decode call whose MAP and HEADER phases are over and whose next token is at index 4, the document being
`fetchDocument w`. It stands for the host's load and START and for the steps D.MAP and D.HDR (log entry 14). -/
def placeFetch (s : State) (w : Nat) : State :=
  { s with
    mode := 1
    callState := .busy
    inLen := 7
    pending := []
    dec := { s.dec with m := 7, mcur := 7, scur := 4, phase := .unpack }
    mem := { s.mem with ic := fetchDocument w } }

end Sys2Proof.Machine
end

