-- ==== Sys2Proof/Machine/Step.lean ====
section
/-! DEFINITION. The step of the machine, and the host's placing of one instruction where step fetches. -/

namespace Sys2Proof.Machine

/-- One step (`turn`). -/
def step (s : State) : Host.Outcome State Fault Refusal := turn s

/-- `s` with the instruction of the bits `w` where `step` fetches its next instruction (`placeFetch`). -/
def State.withFetchWord (s : State) (_nbits w : Nat) : State := placeFetch s w

end Sys2Proof.Machine
end

