-- ==== Sys2Proof/Machine/Packer.lean ====
section
/-! DEFINITION. The Bit Packer and the Bit Unpacker (42_packer_unpacker.md). -/

namespace Sys2Proof.Machine

/-- R181: `split1`: full pieces first, the remainder last; a token of at most 1023 units, zero included, stays one piece. -/
def Token.split : Token → List Token
  | .literal b => [.literal b]
  | .run kind 0 => [.run kind 0]
  | .run kind (n + 1) =>
    List.replicate ((n + 1) / Config.maxLen) (.run kind Config.maxLen) ++
      (if (n + 1) % Config.maxLen ≠ 0 then [.run kind ((n + 1) % Config.maxLen)] else [])

/-- R181: `split`. -/
def split (ts : List Token) : List Token := ts.flatMap Token.split

/-- P.LIT, P.ZRUN, P.FRUN, P.PRUN (R182 to R185): the instructions of one token of at most 1023 units. -/
def Token.instrs : Token → List Instr
  | .literal b => [.lit b]
  | .run .zeroRun len => [.zrun (BitVec.ofNat 10 len)]
  | .run .ffRun len => [.frun (BitVec.ofNat 10 len)]
  | .run (.patternRun p0 p1) len => [.prun (BitVec.ofNat 10 len), .pat0 p0, .pat1 p1]

/-- R182 to R185: `pack1`: the symbols of those instructions (30_encoding.md R93 to R95). -/
def Token.pack (t : Token) : List Sym := encodeDocument t.instrs

/-- R186: the Packer. -/
def pack (ts : List Token) : List Sym := (split ts).flatMap Token.pack

/-- `ceil(len / 1023)`. -/
def pieces (len : Nat) : Nat := (len + 1022) / 1023

/-- R188: the packed cost of a token, in symbols. -/
def Token.cost : Token → Nat
  | .literal _ => 1
  | .run .zeroRun len => max 1 (pieces len)
  | .run .ffRun len => max 1 (pieces len)
  | .run (.patternRun _ _) len => 3 * max 1 (pieces len)

/-- R197, R191 to R196: the Unpacker. One token after another to the end of the body; a reserved symbol or a PatternRun
cut short raises `MalformedBody`. -/
def unpack : List Sym → Except FailureKind (List Token)
  | [] => .ok []
  | w :: rest =>
    match decodeToken w with
    | .lit b =>
      match unpack rest with
      | .ok ts => .ok (.literal b :: ts)
      | .error k => .error k
    | .zrun len =>
      match unpack rest with
      | .ok ts => .ok (.run .zeroRun len.toNat :: ts)
      | .error k => .error k
    | .frun len =>
      match unpack rest with
      | .ok ts => .ok (.run .ffRun len.toNat :: ts)
      | .error k => .error k
    | .prun len =>
      match rest with
      | a :: c :: rest' =>
        match patternByte a, patternByte c with
        | some p0, some p1 =>
          match unpack rest' with
          | .ok ts => .ok (.run (.patternRun p0 p1) len.toNat :: ts)
          | .error k => .error k
        | _, _ => .error .malformedBody
      | _ => .error .malformedBody
    | .rsv100 _ => .error .malformedBody
    | .rsv200 _ => .error .malformedBody
    | .rsv300 _ => .error .malformedBody
    | .hdr3 _ => .error .malformedBody
    | .hdr2 _ => .error .malformedBody
    | .hdr1 _ => .error .malformedBody
    | .hdr0 _ => .error .malformedBody
    | .pat0 _ => .error .malformedBody
    | .pat1 _ => .error .malformedBody

/-- R190: FROMCP over a whole document: fails if any element fails. -/
def fromCodePoints : List CPIn → Except FailureKind (List Sym)
  | [] => .ok []
  | c :: cs =>
    match fromCodePoint c with
    | .error _ => .error .outOfRangeSymbol
    | .ok w =>
      match fromCodePoints cs with
      | .ok ws => .ok (w :: ws)
      | .error k => .error k

end Sys2Proof.Machine
end

