-- ==== Sys2Proof/Machine/Calls.lean ====
section
/-! DEFINITION. The two calls as functions, the normative level (00_scope.md R13; 44_orchestration.md R240, R241). -/

namespace Sys2Proof.Machine

/-- The symbols of an encoded document: header, then body (R240). -/
def encodedSymbols (b : List Byte) : List Sym := writeHeader (BitVec.ofNat 48 b.length) ++ pack (compress b)

/-- R240: ENCODE. Nothing for a buffer of 2^48 bytes or more: the header can record no more (R222, U3; log entry 8). -/
def encodeCall (b : List Byte) : Option (List CPOut) :=
  if b.length < 2 ^ 48 then some ((encodedSymbols b).map codePoint) else none

/-- R241: DECODE: the phases MAP, HEADER, UNPACK, EXPAND, VERIFY, each over the whole of its input. -/
def decodeCall (c : List CPIn) : Except FailureKind (List Byte) :=
  match fromCodePoints c with
  | .error k => .error k
  | .ok s =>
    match readHeader s with
    | .error k => .error k
    | .ok (h, body) =>
      match unpack body with
      | .error k => .error k
      | .ok ts => if (decompress ts).length = h.toNat then .ok (decompress ts) else .error .lengthMismatch

/-- H4: an output code point handed back to DEC as an input code point, unaltered. -/
def carry (c : CPOut) : CPIn := c.setWidth 21

end Sys2Proof.Machine
end

