-- ==== Sys2Proof/Safety.lean ====
section
/-! DEFINITION. What a good state of SSCORE is, in the terms the statements use: who is running, what the input buffers hold,
what the host may see, and the invariant every step keeps. -/

namespace Sys2Proof.Machine

/-- `k` steps of the machine, stopping at the first fault or refusal. -/
def runFor (k : Nat) (s : State) : Result := Host.Core.run Sys2Proof.core k s

/-- The symbol at index `j` of `IC`: placed, and in range (R190). -/
def SymbolAt (s : State) (j : Nat) (w : Sym) : Prop := ∃ c, s.readIC j = some c ∧ fromCodePoint c = .ok w

/-- A decode call is in progress and the next step is DEC's. -/
structure DecRuns (s : State) : Prop where
  pending : s.pending = []
  busy : s.callState = .busy
  mode : s.mode = 1#1

/-- An encode call is in progress and the next step is ENC's. -/
structure EncRuns (s : State) : Prop where
  pending : s.pending = []
  busy : s.callState = .busy
  mode : s.mode = 0#1

/-- The host has made ready an encode call on the bytes `b` (R249, R254 H1) and its one command left is the write of
`CTRL` that starts it, MODE unchanged. -/
structure ReadyToEncode (s : State) (b : List Byte) : Prop where
  idle : s.callState ≠ .busy
  mode : s.mode = 0#1
  length : s.inLen.toNat = b.length
  fits : b.length < 2 ^ 48
  input : s.inputBytes b.length = some b
  start : ∃ v, s.pending = [.writeReg .ctrl v] ∧ ctrlStartBit v = true ∧ ctrlModeBit v = 0#1

/-- The host has made ready a decode call on the code points `c` (R249, R254 H1) and its one command left is the write of
`CTRL` that starts it, MODE unchanged. -/
structure ReadyToDecode (s : State) (c : List CPIn) : Prop where
  idle : s.callState ≠ .busy
  mode : s.mode = 1#1
  length : s.inLen.toNat = c.length
  input : s.inputCodePoints c.length = some c
  start : ∃ v, s.pending = [.writeReg .ctrl v] ∧ ctrlStartBit v = true ∧ ctrlModeBit v = 1#1

/-- What a host that keeps its duties can learn of a state (R248, R252): `STATUS.STATE`, `ERR.CODE`, `OUT_LEN`, and the
output buffers once the call is DONE. -/
def SameToHost (s t : State) : Prop :=
  s.callState = t.callState ∧ s.errCode = t.errCode ∧ s.outLen = t.outLen ∧
    (s.callState = .done → s.mem.oc = t.mem.oc ∧ s.mem.ob = t.mem.ob)

/-- Two outcomes of which the host can tell nothing apart. -/
def SameOutcome : Result → Result → Prop
  | .next s, .next t => SameToHost s t
  | .fault e, .fault f => e = f
  | .refused e, .refused f => e = f
  | _, _ => False

/-- R32: the transitions of `STATUS.STATE`: none; START; the engine's end of a call; reset. -/
def AllowedTransition (s t : State) : Prop :=
  s.callState = t.callState ∨ (s.callState ≠ .busy ∧ t.callState = .busy) ∨
    (s.callState = .busy ∧ (t.callState = .done ∨ t.callState = .failed)) ∨
    (s.callState ≠ .busy ∧ t.callState = .idle)

/-- The symbols still to be emitted for the run ENC is packing (R188, R257). -/
def EncRegs.owed (e : EncRegs) : Nat :=
  (if e.rkind = 3#2 then 3 else 1) * ((e.rlen.toNat + 1022) / 1023) +
    (if e.psub = 1#2 then 2 else if e.psub = 2#2 then 1 else 0)

/-- ENC's registers in an encode call (R36, R38, R44): they stay in their ranges, `OCNT` counts `OC`, and `OC` and the
symbols owed never exceed the bytes covered and the header. -/
structure EncInv (s : State) : Prop where
  length : s.inLen.toNat < 2 ^ 48 ∧ s.enc.n = s.inLen.setWidth 48
  cursor : s.enc.cur ≤ s.enc.n
  running : s.enc.phase ≠ .ended
  header : s.enc.phase = .header →
    s.enc.hcnt.toNat < 4 ∧ s.mem.oc.length = s.enc.hcnt.toNat ∧ s.enc.cur = 0 ∧ s.enc.rlen = 0 ∧ s.enc.psub = 0
  sub : s.enc.psub ≠ 3#2 ∧ (s.enc.psub ≠ 0#2 → s.enc.rkind = 3#2)
  kind : s.enc.rlen ≠ 0 → s.enc.rkind ≠ 0#2
  count : s.enc.ocnt.toNat = s.mem.oc.length
  budget : s.mem.oc.length + s.enc.owed ≤ s.enc.cur.toNat + 4
  noBytes : s.mem.ob = []

/-- DEC's registers in a decode call (R37, R39, R44, R170): they stay in their ranges, the code points MAP has passed are
placed and in range, and `OCNT` with `OVF` counts `OB`. -/
structure DecInv (s : State) : Prop where
  length : s.dec.m = s.inLen
  cursor : s.dec.mcur ≤ s.dec.m ∧ s.dec.scur ≤ s.dec.m
  running : s.dec.phase ≠ .ended
  early : s.dec.phase = .map ∨ s.dec.phase = .header → s.dec.scur = 0
  passed : ∀ j, j < s.dec.mcur.toNat → ∃ w, SymbolAt s j w
  mapped : s.dec.phase ≠ .map → s.dec.mcur = s.dec.m
  kind : s.dec.phase = .expand → s.dec.rkind ≠ 0#2
  count : s.dec.ocnt.toNat = s.mem.ob.length % 2 ^ 48
  overflow : s.dec.ovf = true ↔ 2 ^ 48 ≤ s.mem.ob.length
  noCodePoints : s.mem.oc = []

/-- The invariant of SSCORE: the input buffers keep their canonical form; every emitted code point is in the private-use
subrange (R24); `ERR.CODE` and `OUT_LEN` say what `STATUS.STATE` says (R33, R35, R43); the active engine's registers stay
in their ranges. -/
structure Inv (s : State) : Prop where
  memory : s.mem.wf
  output : ∀ c ∈ s.mem.oc, 0xE000 ≤ c.toNat ∧ c.toNat ≤ 0xEFFF
  noError : s.callState ≠ .failed → s.errCode = 0#3
  error : s.callState = .failed → s.errCode = 1#3 ∨ s.errCode = 2#3 ∨ s.errCode = 3#3 ∨ s.errCode = 5#3
  noLength : s.callState ≠ .done → s.outLen = 0
  outLength : s.callState = .done → s.outLen.toNat = s.mem.oc.length + s.mem.ob.length
  encoding : s.callState = .busy → s.mode = 0#1 → EncInv s
  decoding : s.callState = .busy → s.mode = 1#1 → DecInv s

/-- R256: the single-symbol replacements at a token's first index that leave the decoded bytes unchanged. -/
def aliasing (x y : Sym) : Bool :=
  (x == 0x000#12 && y == 0x401#12) || (x == 0x401#12 && y == 0x000#12) ||
  (x == 0x0FF#12 && y == 0x801#12) || (x == 0x801#12 && y == 0x0FF#12) ||
  (x == 0xC01#12 && (y == 0x400#12 || y == 0x800#12))

end Sys2Proof.Machine
end

