-- ==== Sys2Proof/Certificates/Slice0/Obligations.lean ====
section
/-! DEFINITION. The statements about SSCORE. Each docstring names the rule of spec/ it formalises. -/

open Sys2Proof Sys2Proof.Machine

/-! ### Encoding -/

/-- R93 to R96 on words written out from their layouts. -/
def Obligations.WrittenOutWordsDecode : Prop :=
  decodeSym .hdr3 0b111100001010#12 = .ok (.hdr3 0xF0A#12) ∧
  decodeSym .hdr0 0b010000010100#12 = .ok (.hdr0 0x414#12) ∧
  decodeSym .token 0b000001000001#12 = .ok (.lit 0x41#8) ∧
  decodeSym .token 0b010000010100#12 = .ok (.zrun 20#10) ∧
  decodeSym .token 0b100000000110#12 = .ok (.frun 6#10) ∧
  decodeSym .token 0b110000000101#12 = .ok (.prun 5#10) ∧
  decodeSym .pat0 0b000001000001#12 = .ok (.pat0 0x41#8) ∧
  decodeSym .pat1 0b000001000010#12 = .ok (.pat1 0x42#8) ∧
  decodeSym .pat1 0b010000010100#12 = .error .reservedPattern ∧
  decodeSym .token 0b000101000001#12 = .ok (.rsv100 0x41#8)

/-- R97, R112: whatever a word decodes to in a position stands in that position and encodes back to that word; so one
word has one meaning in a position. -/
def Obligations.DecodedWordEncodesBack : Prop :=
  ∀ (p : Position) (w : Sym) (i : Instr), decodeSym p w = .ok i → i.position = p ∧ encodeSym i = w

/-- R97, R98, R112: decoding the words of a well-formed document gives its instructions back. -/
def Obligations.DocumentDecodesToItself : Prop :=
  ∀ is : List Instr, wellFormedDocument is = true → decodeDocument (encodeDocument is) = .ok is

/-- R105: a symbol in a PAT position is refused exactly when bits [11:8] are not all zero; every other position decodes. -/
def Obligations.OnlyReservedPatternIsRefused : Prop :=
  ∀ (p : Position) (w : Sym),
    (∃ e, decodeSym p w = .error e) ↔ (p = .pat0 ∨ p = .pat1) ∧ w.extractLsb' 8 4 ≠ 0#4

/-- R102. -/
def Obligations.CodePointMappingIsBijective : Prop :=
  (∀ w : Sym, (codePoint w).toNat = 0xE000 + w.toNat ∧
    (codePoint w).extractLsb' 12 4 = 0b1110#4 ∧ (codePoint w).extractLsb' 0 12 = w) ∧
  (∀ c : CPIn, (∃ w, fromCodePoint c = .ok w) ↔ 0xE000 ≤ c.toNat ∧ c.toNat ≤ 0xEFFF) ∧
  (∀ (c : CPIn) (w : Sym), fromCodePoint c = .ok w ↔ c.toNat = 0xE000 + w.toNat) ∧
  (∀ (b : List Byte) (out : List CPOut), encodeCall b = some out → out = (encodedSymbols b).map codePoint)

/-! ### Header codec -/

/-- R221. -/
def Obligations.WriteHeaderGivesFourDigits : Prop :=
  (∀ n : Len48, (writeHeader n).map (·.toNat) =
    [n.toNat / 2 ^ 36 % 4096, n.toNat / 2 ^ 24 % 4096, n.toNat / 2 ^ 12 % 4096, n.toNat % 4096]) ∧
  (∀ n : Len48, writeHeader n =
    [n.extractLsb' 36 12, n.extractLsb' 24 12, n.extractLsb' 12 12, n.extractLsb' 0 12]) ∧
  writeHeader 0#48 = [0x000#12, 0x000#12, 0x000#12, 0x000#12] ∧
  writeHeader 1#48 = [0x000#12, 0x000#12, 0x000#12, 0x001#12] ∧
  writeHeader 0xFFF#48 = [0x000#12, 0x000#12, 0x000#12, 0xFFF#12] ∧
  writeHeader 0x1000#48 = [0x000#12, 0x000#12, 0x001#12, 0x000#12] ∧
  writeHeader 0x1000000#48 = [0x000#12, 0x001#12, 0x000#12, 0x000#12] ∧
  writeHeader 0x1000000000#48 = [0x001#12, 0x000#12, 0x000#12, 0x000#12] ∧
  writeHeader 0xFFFFFFFFFFFF#48 = [0xFFF#12, 0xFFF#12, 0xFFF#12, 0xFFF#12] ∧
  (writeHeader 20#48).map codePoint = [0xE000#16, 0xE000#16, 0xE000#16, 0xE014#16]

/-- R225. -/
def Obligations.HeaderRoundTrips : Prop :=
  (∀ (n : Len48) (body : List Sym), readHeader (writeHeader n ++ body) = .ok (n, body)) ∧
  (∀ s : List Sym, 4 ≤ s.length → ∃ n rest, readHeader s = .ok (n, rest) ∧ writeHeader n ++ rest = s)

/-- R224. -/
def Obligations.MalformedHeaderExactlyWhenShort : Prop :=
  (∀ s : List Sym, readHeader s = .error .malformedHeader ↔ s.length < 4) ∧
  (∀ c : List CPIn, decodeCall c = .error .malformedHeader ↔
    c.length < 4 ∧ ∀ x ∈ c, 0xE000 ≤ x.toNat ∧ x.toNat ≤ 0xEFFF) ∧
  (∀ c : List CPIn, c.length < 4 → (∃ x ∈ c, ¬(0xE000 ≤ x.toNat ∧ x.toNat ≤ 0xEFFF)) →
    decodeCall c = .error .outOfRangeSymbol) ∧
  decodeCall [] = .error .malformedHeader

/-! ### Compressor -/

/-- R132, R133: each count is the largest `k` with `i + k <= n` and the `k` bytes from `i` all 0x00 (0xFF); at most one of
the two is non-zero. -/
def Obligations.ByteRunCountsAreMaximal : Prop :=
  ∀ (b : List Byte) (i : Nat), i ≤ b.length →
    (i + zcount b i ≤ b.length ∧ (∀ j < zcount b i, b[i + j]? = some 0x00#8) ∧
      (∀ k, i + k ≤ b.length → (∀ j < k, b[i + j]? = some 0x00#8) → k ≤ zcount b i) ∧
      (i = b.length ∨ b[i]? ≠ some 0x00#8 → zcount b i = 0)) ∧
    (i + fcount b i ≤ b.length ∧ (∀ j < fcount b i, b[i + j]? = some 0xFF#8) ∧
      (∀ k, i + k ≤ b.length → (∀ j < k, b[i + j]? = some 0xFF#8) → k ≤ fcount b i) ∧
      (i = b.length ∨ b[i]? ≠ some 0xFF#8 → fcount b i = 0)) ∧
    (zcount b i = 0 ∨ fcount b i = 0)

/-- R134. -/
def Obligations.PairCountIsMaximal : Prop :=
  ∀ (b : List Byte) (i : Nat), i ≤ b.length →
    (i + 2 * pcount b i ≤ b.length ∧
      ∀ j < pcount b i, b[i + 2 * j]? = b[i]? ∧ b[i + 2 * j + 1]? = b[i + 1]?) ∧
    (∀ k, i + 2 * k ≤ b.length →
      (∀ j < k, b[i + 2 * j]? = b[i]? ∧ b[i + 2 * j + 1]? = b[i + 1]?) → k ≤ pcount b i) ∧
    (b.length < i + 2 → pcount b i = 0) ∧ (i + 2 ≤ b.length → 1 ≤ pcount b i)

/-- R135 to R139: the one operation performed at a position, by priority. -/
def Obligations.SelectionFollowsPriority : Prop :=
  ∀ (b : List Byte) (i : Nat) (h : i < b.length), nextToken b i = some (
    if 4 ≤ zcount b i then .run .zeroRun (zcount b i)
    else if 4 ≤ fcount b i then .run .ffRun (fcount b i)
    else if 4 ≤ pcount b i then .run (.patternRun b[i] (b.getD (i + 1) 0)) (pcount b i)
    else .literal b[i])

/-- R143 (1), (3), (6), (7). -/
def Obligations.CompressionIsLossless : Prop :=
  ∀ b : List Byte,
    decompress (compress b) = b ∧
    (∀ k len, .run k len ∈ compress b → 4 ≤ len) ∧
    (compress b).length ≤ b.length ∧
    ((compress b).length = b.length ↔ ∀ t ∈ compress b, ∃ x, t = .literal x) ∧
    ((compress b).map Token.byteLen).sum = b.length

/-- R143 (4), R138: a run is maximal forwards, and a PatternRun's pair is never (0x00, 0x00) or (0xFF, 0xFF). -/
def Obligations.EmittedRunsAreMaximal : Prop :=
  ∀ (b : List Byte) (before after : List Token) (k : Kind) (len : Nat),
    compress b = before ++ .run k len :: after →
      (decompress after).take k.unit.length ≠ k.unit ∧
      k ≠ .patternRun 0x00#8 0x00#8 ∧ k ≠ .patternRun 0xFF#8 0xFF#8

/-! ### Packer and Unpacker -/

/-- R181: SPLIT token by token, full pieces first and the remainder last, and its laws. -/
def Obligations.SplitCutsRunsAndKeepsBytes : Prop :=
  (∀ b, split [.literal b] = [.literal b]) ∧
  (∀ k, split [.run k 0] = [.run k 0]) ∧
  (∀ k len, 1 ≤ len → split [.run k len] =
    rep [.run k 1023] (len / 1023) ++ (if len % 1023 ≠ 0 then [.run k (len % 1023)] else [])) ∧
  (∀ k len, len ≤ 1023 → split [.run k len] = [.run k len]) ∧
  (∀ ts : List Token, split ts = ts.flatMap fun t => split [t]) ∧
  ∀ ts : List Token,
    (∀ k len, .run k len ∈ split ts → len ≤ 1023) ∧
    decompress (split ts) = decompress ts ∧ split (split ts) = split ts

/-- R198. -/
def Obligations.UnpackInvertsPack : Prop :=
  (∀ ts : List Token, unpack (pack ts) = .ok (split ts)) ∧
  (∀ ts : List Token, (∀ k len, .run k len ∈ ts → len ≤ 1023) → unpack (pack ts) = .ok ts) ∧
  (∀ (body : List Sym) (ts : List Token), unpack body = .ok ts → pack ts = body) ∧
  (∀ w : Sym, fromCodePoint (carry (codePoint w)) = .ok w) ∧
  (∀ (c : CPIn) (w : Sym), fromCodePoint c = .ok w → carry (codePoint w) = c)

/-- R188. -/
def Obligations.PackedCost : Prop :=
  (∀ b, (Token.literal b).cost = 1) ∧
  (∀ len, (Token.run .zeroRun len).cost = max 1 ((len + 1022) / 1023) ∧
    (Token.run .ffRun len).cost = max 1 ((len + 1022) / 1023)) ∧
  (∀ p0 p1 len, (Token.run (.patternRun p0 p1) len).cost = 3 * max 1 ((len + 1022) / 1023)) ∧
  (∀ ts : List Token, (pack ts).length = (ts.map Token.cost).sum) ∧
  (∀ k len, len ≤ 1023 → (Token.run k len).cost ≤ 3)

/-- R144, for every run of at least 2 units, and so for `T = 4`, for `T = 2` and for `T = 3`. -/
def Obligations.OverheadInvariantHolds : Prop :=
  (∀ x, (Token.literal x).cost = 1) ∧
  (∀ len, 2 ≤ len →
    (Token.run .zeroRun len).cost = (len + 1022) / 1023 ∧ (Token.run .ffRun len).cost = (len + 1022) / 1023 ∧
    (len + 1022) / 1023 < len) ∧
  (∀ p0 p1 r, 2 ≤ r →
    (Token.run (.patternRun p0 p1) r).cost = 3 * ((r + 1022) / 1023) ∧ 3 * ((r + 1022) / 1023) < 2 * r) ∧
  (∀ (b : List Byte) k len, .run k len ∈ compress b →
    (pack [.run k len]).length < (pack ((Token.run k len).expand.map .literal)).length)

/-- R167. -/
def Obligations.ByteLengthIsExpandedLength : Prop :=
  (∀ b, (Token.literal b).byteLen = 1) ∧
  (∀ len, (Token.run .zeroRun len).byteLen = len ∧ (Token.run .ffRun len).byteLen = len) ∧
  (∀ p0 p1 len, (Token.run (.patternRun p0 p1) len).byteLen = 2 * len) ∧
  (∀ t : Token, t.expand.length = t.byteLen) ∧
  (∀ ts : List Token, (decompress ts).length = (ts.map Token.byteLen).sum)

/-- R170: over `n` Appends from a fresh count, `OVF` is 0 exactly when `n <= 2^48 - 1`, and then `OCNT` is `n`. -/
def Obligations.ByteCountIsExactBelowOverflow : Prop :=
  ∀ (d : DecRegs) (n : Nat), d.ocnt = 0 → d.ovf = false →
    ((DecRegs.count^[n] d).ovf = false ↔ n ≤ 2 ^ 48 - 1) ∧
    (n ≤ 2 ^ 48 - 1 → (DecRegs.count^[n] d).ocnt.toNat = n) ∧
    { DecRegs.count^[n] d with ocnt := d.ocnt, ovf := d.ovf } = d

/-! ### The two calls as functions -/

/-- R245. -/
def Obligations.DecodeInvertsEncode : Prop :=
  ∀ b : List Byte, b.length ≤ 2 ^ 48 - 1 → ∃ c, encodeCall b = some c ∧ decodeCall (c.map carry) = .ok b

/-- R246. -/
def Obligations.CodePointsStayInRange : Prop :=
  (∀ (b : List Byte) (c : List CPOut), encodeCall b = some c → ∀ x ∈ c, 0xE000 ≤ x.toNat ∧ x.toNat ≤ 0xEFFF) ∧
  (∀ c : List CPIn, decodeCall c = .error .outOfRangeSymbol ↔
    ∃ x ∈ c, ¬(0xE000 ≤ x.toNat ∧ x.toNat ≤ 0xEFFF))

/-- R240: the length of an encoded document. -/
def Obligations.EncodedLengthBounds : Prop :=
  ∀ (b : List Byte) (c : List CPOut), encodeCall b = some c →
    4 ≤ c.length ∧ c.length ≤ b.length + 4 ∧
    (c.length = b.length + 4 ↔ ∀ t ∈ compress b, ∃ x, t = .literal x)

/-- R226. -/
def Obligations.EmptyPayloadRoundTrips : Prop :=
  encodeCall [] = some [0xE000#16, 0xE000#16, 0xE000#16, 0xE000#16] ∧
  decodeCall [0xE000#21, 0xE000#21, 0xE000#21, 0xE000#21] = .ok []

/-- R255. -/
def Obligations.CompressionIsMonotone : Prop :=
  (∀ b : List Byte, b.length < 2 ^ 48 →
    (∀ i < b.length, zcount b i < 4 ∧ fcount b i < 4 ∧ pcount b i < 4) →
    ∃ c, encodeCall b = some c ∧ c.length = b.length + 4) ∧
  (∀ L, 4 ≤ L → L < 2 ^ 48 → ∀ x : Byte, x = 0x00#8 ∨ x = 0xFF#8 →
    ∃ c, encodeCall (rep [x] L) = some c ∧ c.length = 4 + (L + 1022) / 1023 ∧ c.length < L + 4) ∧
  (∀ L, 8 ≤ L → L < 2 ^ 48 → ∀ x : Byte, x ≠ 0x00#8 → x ≠ 0xFF#8 →
    ∃ c, encodeCall (rep [x] L) = some c ∧ c.length = 4 + 3 * ((L / 2 + 1022) / 1023) + L % 2 ∧ c.length < L + 4) ∧
  (∀ L, 4 ≤ L → L ≤ 7 → ∀ x : Byte, x ≠ 0x00#8 → x ≠ 0xFF#8 →
    compress (rep [x] L) = rep [.literal x] L ∧ ∃ c, encodeCall (rep [x] L) = some c ∧ c.length = L + 4)

/-- R287, R280, R282 to R286: one failure a call, that of the earliest failing phase. -/
def Obligations.EarliestPhaseFails : Prop :=
  ∀ c : List CPIn,
    ((∃ x ∈ c, ¬(0xE000 ≤ x.toNat ∧ x.toNat ≤ 0xEFFF)) → decodeCall c = .error .outOfRangeSymbol) ∧
    (∀ s, fromCodePoints c = .ok s →
      (s.length < 4 → decodeCall c = .error .malformedHeader) ∧
      (∀ h body, readHeader s = .ok (h, body) →
        (∀ k, unpack body = .error k → k = .malformedBody ∧ decodeCall c = .error .malformedBody) ∧
        (∀ ts, unpack body = .ok ts →
          ((decompress ts).length ≠ h.toNat → decodeCall c = .error .lengthMismatch) ∧
          ((decompress ts).length = h.toNat → decodeCall c = .ok (decompress ts))))) ∧
    decodeCall c ≠ .error .emptyInput

/-- R256 (1), (2): a header symbol replaced, or any code point replaced by one out of range. -/
def Obligations.HeaderCorruptionIsDetected : Prop :=
  ∀ (b : List Byte) (c : List CPOut) (i : Nat) (x : CPIn), encodeCall b = some c → i < c.length →
    (c.map carry)[i]? ≠ some x →
      (¬(0xE000 ≤ x.toNat ∧ x.toNat ≤ 0xEFFF) → decodeCall ((c.map carry).set i x) = .error .outOfRangeSymbol) ∧
      (0xE000 ≤ x.toNat ∧ x.toNat ≤ 0xEFFF → i < 4 → decodeCall ((c.map carry).set i x) = .error .lengthMismatch)

/-- R256 (3): a body symbol replaced gives a failure or other bytes, but for the six replacements the rule lists. -/
def Obligations.BodyCorruptionIsDetected : Prop :=
  ∀ (b : List Byte) (front rest : List Sym) (x y : Sym), b.length < 2 ^ 48 →
    pack (compress b) = front ++ x :: rest → x ≠ y →
      ∃ r, decodeCall ((writeHeader (BitVec.ofNat 48 b.length) ++ front ++ y :: rest).map fun w => carry (codePoint w)) = r ∧
        (r = .error .malformedBody ∨ r = .error .lengthMismatch ∨ ∃ b', r = .ok b') ∧
        (r = .ok b ↔ (∃ ts, unpack front = .ok ts) ∧ aliasing x y = true)

/-! ### Instructions -/

/-- R223, R96: what each header symbol does in a document of at least four symbols. The values of `SCUR` between the
four are the model's choice (log entry 15). -/
def Obligations.HeaderSymbolsLoadHdr : Prop :=
  ∀ (h : Sym) (s : State), 4 ≤ s.dec.m.toNat →
    exec (.hdr3 h) s = .next { s with dec := { s.dec with hdr3 := h, scur := 1 } } ∧
    exec (.hdr2 h) s = .next { s with dec := { s.dec with hdr2 := h, scur := 2 } } ∧
    exec (.hdr1 h) s = .next { s with dec := { s.dec with hdr1 := h, scur := 3 } } ∧
    exec (.hdr0 h) s = .next { s with dec := { s.dec with hdr0 := h, scur := 4, phase := .unpack } }

/-- R224, R288: a header symbol of a document of fewer than four symbols raises `MalformedHeader`. -/
def Obligations.HeaderSymbolsTrapWhenShort : Prop :=
  ∀ (h : Sym) (s : State), s.dec.m.toNat < 4 → ∀ i ∈ [Instr.hdr3 h, .hdr2 h, .hdr1 h, .hdr0 h],
    exec i s = .next { s with
      errCode := 1#3, outLen := 0, callState := .failed, dec := { s.dec with phase := .ended } }

/-- R192, R162, R170: LIT appends its byte, counts it and advances `SCUR` by 1; nothing else changes. -/
def Obligations.LiteralAppendsItsByte : Prop :=
  ∀ (b : Byte) (s : State), exec (.lit b) s = .next { s with
    mem := { s.mem with ob := s.mem.ob ++ [b] }
    dec := { s.dec with
      ocnt := BitVec.ofNat 48 (s.dec.ocnt.toNat + 1)
      ovf := s.dec.ovf || (s.dec.ocnt.toNat == 2 ^ 48 - 1)
      scur := s.dec.scur + 1 } }

/-- R193, R194: ZRUN and FRUN load the run and advance `SCUR` by 1; nothing else changes. -/
def Obligations.RunHeadsLoadTheRun : Prop :=
  ∀ (len : RunLen) (s : State),
    exec (.zrun len) s = .next { s with
      dec := { s.dec with rkind := 1, rlen := len, scur := s.dec.scur + 1, phase := .expand } } ∧
    exec (.frun len) s = .next { s with
      dec := { s.dec with rkind := 2, rlen := len, scur := s.dec.scur + 1, phase := .expand } }

/-- R195: PRUN followed by two legal PAT symbols loads kind, length and pair and advances `SCUR` by 3; nothing else
changes. -/
def Obligations.PatternRunLoadsThePair : Prop :=
  ∀ (len : RunLen) (s : State) (a c : Sym), s.dec.scur.toNat + 2 < s.dec.m.toNat →
    SymbolAt s (s.dec.scur.toNat + 1) a → SymbolAt s (s.dec.scur.toNat + 2) c →
    a.extractLsb' 8 4 = 0#4 → c.extractLsb' 8 4 = 0#4 →
      exec (.prun len) s = .next { s with
        dec := { s.dec with
          rkind := 3, rlen := len, p0 := a.extractLsb' 0 8, p1 := c.extractLsb' 0 8, psub := 0
          scur := s.dec.scur + 3, phase := .expand } }

/-- R195, R288: PRUN with fewer than two symbols after it, or with a reserved one, raises `MalformedBody`. -/
def Obligations.PatternRunTrapsWhenCutOrReserved : Prop :=
  ∀ (len : RunLen) (s : State),
    (s.dec.m.toNat ≤ s.dec.scur.toNat + 2 →
      exec (.prun len) s = .next { s with
        errCode := 5#3, outLen := 0, callState := .failed, dec := { s.dec with phase := .ended } }) ∧
    (∀ a c, s.dec.scur.toNat + 2 < s.dec.m.toNat →
      SymbolAt s (s.dec.scur.toNat + 1) a → SymbolAt s (s.dec.scur.toNat + 2) c →
      a.extractLsb' 8 4 ≠ 0#4 ∨ c.extractLsb' 8 4 ≠ 0#4 →
        exec (.prun len) s = .next { s with
          errCode := 5#3, outLen := 0, callState := .failed, dec := { s.dec with phase := .ended } })

/-- R195: PAT0 and PAT1 load the pair, each advancing `SCUR` by 1; PAT1 completes the token; nothing else changes.
That the token is told apart by symbol is the model's choice (log entry 15). -/
def Obligations.PatternBytesLoadThePair : Prop :=
  ∀ (b : Byte) (s : State),
    exec (.pat0 b) s = .next { s with dec := { s.dec with p0 := b, scur := s.dec.scur + 1 } } ∧
    exec (.pat1 b) s = .next { s with
      dec := { s.dec with p1 := b, psub := 0, scur := s.dec.scur + 1, phase := .expand } }

/-- R196: a reserved literal raises `MalformedBody`, always, on the machine and in `unpack`; on the machine nothing but the
failure's registers changes. -/
def Obligations.ReservedLiteralsRaiseMalformedBody : Prop :=
  (∀ (x : Byte) (s : State), ∀ i ∈ [Instr.rsv100 x, .rsv200 x, .rsv300 x],
    exec i s = .next { s with
      errCode := 5#3, outLen := 0, callState := .failed, dec := { s.dec with phase := .ended } }) ∧
  (∀ (w : Sym) (rest : List Sym), w.extractLsb' 10 2 = 0b00#2 → w.extractLsb' 8 2 ≠ 0b00#2 →
    unpack (w :: rest) = .error .malformedBody ∧
    ∃ x, ∃ i ∈ [Instr.rsv100 x, .rsv200 x, .rsv300 x], decodeSym .token w = .ok i)

/-! ### Steps -/

/-- R258, D.TOK: in phase UNPACK the step runs the instruction decoded at `SCUR`, with nothing added around it. -/
def Obligations.StepRunsTheDecodedToken : Prop :=
  ∀ (s : State) (w : Sym) (i : Instr), DecRuns s → s.dec.phase = .unpack → s.dec.scur < s.dec.m →
    SymbolAt s s.dec.scur.toNat w → decodeSym .token w = .ok i → step s = exec i s

/-- R258, D.HDR: in phase HEADER the step runs HDR3, HDR2, HDR1, HDR0 one after another, which gives `HDR` the value of
R223, `SCUR` 4 and `PHASE` UNPACK. -/
def Obligations.StepReadsTheHeader : Prop :=
  ∀ (s : State) (w3 w2 w1 w0 : Sym), DecRuns s → s.dec.phase = .header → 4 ≤ s.dec.m.toNat →
    SymbolAt s 0 w3 → SymbolAt s 1 w2 → SymbolAt s 2 w1 → SymbolAt s 3 w0 →
      step s = andThen (exec (.hdr3 w3) s) (fun s => andThen (exec (.hdr2 w2) s) fun s =>
        andThen (exec (.hdr1 w1) s) fun s => exec (.hdr0 w0) s) ∧
      ∃ t, step s = .next t ∧
        t = { s with dec := { s.dec with hdr3 := w3, hdr2 := w2, hdr1 := w1, hdr0 := w0, scur := 4, phase := .unpack } } ∧
        t.dec.hdr.toNat = w3.toNat * 2 ^ 36 + w2.toNat * 2 ^ 24 + w1.toNat * 2 ^ 12 + w0.toNat

/-- R163, R164, R258: from a ZRUN or FRUN at `SCUR`, `len + 2` steps append `len` bytes, count them and come back to
UNPACK one symbol further; nothing else changes. -/
def Obligations.ByteRunsExpand : Prop :=
  ∀ (s : State) (w : Sym) (len : RunLen) (i : Instr) (v : Byte) (kind : BitVec 2),
    (i = .zrun len ∧ v = 0x00#8 ∧ kind = 1#2) ∨ (i = .frun len ∧ v = 0xFF#8 ∧ kind = 2#2) →
    DecRuns s → s.dec.phase = .unpack → s.dec.scur < s.dec.m →
    SymbolAt s s.dec.scur.toNat w → decodeSym .token w = .ok i →
      runFor (len.toNat + 2) s = .next { s with
        mem := { s.mem with ob := s.mem.ob ++ rep [v] len.toNat }
        dec := { s.dec with
          rkind := kind, rlen := 0, scur := s.dec.scur + 1
          ocnt := BitVec.ofNat 48 (s.dec.ocnt.toNat + len.toNat)
          ovf := s.dec.ovf || decide (2 ^ 48 ≤ s.dec.ocnt.toNat + len.toNat) } }

/-- R165, R66, R258: from a PRUN token at `SCUR`, `2 * len + 2` steps append `len` repetitions of the pair, count them and
come back to UNPACK three symbols further; nothing else changes. -/
def Obligations.PatternRunsExpand : Prop :=
  ∀ (s : State) (w a c : Sym) (len : RunLen) (p0 p1 : Byte), DecRuns s → s.dec.phase = .unpack →
    s.dec.scur.toNat + 2 < s.dec.m.toNat →
    SymbolAt s s.dec.scur.toNat w → decodeSym .token w = .ok (.prun len) →
    SymbolAt s (s.dec.scur.toNat + 1) a → decodeSym .pat0 a = .ok (.pat0 p0) →
    SymbolAt s (s.dec.scur.toNat + 2) c → decodeSym .pat1 c = .ok (.pat1 p1) →
      runFor (2 * len.toNat + 2) s = .next { s with
        mem := { s.mem with ob := s.mem.ob ++ rep [p0, p1] len.toNat }
        dec := { s.dec with
          rkind := 3, rlen := 0, p0 := p0, p1 := p1, psub := 0, scur := s.dec.scur + 3
          ocnt := BitVec.ofNat 48 (s.dec.ocnt.toNat + 2 * len.toNat)
          ovf := s.dec.ovf || decide (2 ^ 48 ≤ s.dec.ocnt.toNat + 2 * len.toNat) } }

/-- R257, E.RUN, R181, R94: from a run of `RLEN` units of kind ZeroRun or FFRun, `ceil(RLEN / 1023)` steps emit the symbols
of the run's pieces in `split`'s order; nothing else changes. -/
def Obligations.EncoderEmitsByteRunPieces : Prop :=
  ∀ (s : State) (k : Kind), EncRuns s → s.enc.phase = .body → s.enc.psub = 0 →
    (s.enc.rkind = 1#2 ∧ k = .zeroRun) ∨ (s.enc.rkind = 2#2 ∧ k = .ffRun) → s.enc.rlen ≠ 0 →
      runFor ((s.enc.rlen.toNat + 1022) / 1023) s = .next { s with
        mem := { s.mem with oc := s.mem.oc ++ (pack [.run k s.enc.rlen.toNat]).map codePoint }
        enc := { s.enc with
          rlen := 0, ocnt := s.enc.ocnt + BitVec.ofNat 49 ((s.enc.rlen.toNat + 1022) / 1023) } }

/-! ### Whole-machine rules -/

/-- R62, R61, R30, R31: a step taken while BUSY leaves `IB`, `IC`, `MODE` and `IN_LEN` as they are and appends at most one
element to one output buffer. -/
def Obligations.BusyStepOnlyAppends : Prop :=
  ∀ s t : State, s.callState = .busy → step s = .next t →
    t.mem.ib = s.mem.ib ∧ t.mem.ic = s.mem.ic ∧ t.mode = s.mode ∧ t.inLen = s.inLen ∧
    ((t.mem.oc = s.mem.oc ∧ t.mem.ob = s.mem.ob) ∨
      (∃ c, t.mem.oc = s.mem.oc ++ [c] ∧ t.mem.ob = s.mem.ob ∧ s.mode = 0#1) ∨
      (∃ b, t.mem.ob = s.mem.ob ++ [b] ∧ t.mem.oc = s.mem.oc ∧ s.mode = 1#1))

/-- R32: the only transitions of `STATUS.STATE`, and START is the only way into BUSY. -/
def Obligations.StateTransitionsAreTheListed : Prop :=
  ∀ s t : State, step s = .next t →
    AllowedTransition s t ∧
    (s.callState ≠ .busy → t.callState = .busy →
      ∃ v rest, s.pending = .writeReg .ctrl v :: rest ∧ ctrlStartBit v = true) ∧
    (s.callState ≠ .busy → t.callState = .idle → s.callState ≠ .idle → ∃ rest, s.pending = .reset :: rest)

/-- R280, R288, R291: a step that fails a call is failure entry on the state it found, and nothing else; only a decode call
fails, and never with `EmptyInput`. -/
def Obligations.FailureEntryIsPrecise : Prop :=
  ∀ s t : State, s.callState = .busy → step s = .next t → t.callState = .failed →
    s.mode = 1#1 ∧ ∃ k : FailureKind, k ≠ .emptyInput ∧
      t = { s with
        pending := t.pending, errCode := k.code, outLen := 0, callState := .failed
        dec := { s.dec with phase := .ended } }

/-- R38, R39: the cursors never go back within a call. -/
def Obligations.CursorsNeverGoBack : Prop :=
  ∀ s t : State, Inv s → s.callState = .busy → step s = .next t →
    s.enc.cur ≤ t.enc.cur ∧ s.dec.mcur ≤ t.dec.mcur ∧ s.dec.scur ≤ t.dec.scur

/-- The invariant of SSCORE holds at reset. The values of working registers and buffers there are the model's choice (log
entries 4 and 5). -/
def Obligations.ResetMeetsInv : Prop := Inv State.reset

/-- The invariant of SSCORE is kept by every step. -/
def Obligations.StepKeepsInv : Prop := ∀ s t : State, Inv s → step s = .next t → Inv t

/-- R257, R258, R251: where the invariant holds, a BUSY engine always has an enabled step; the machine stops only at an
input element the host never placed or at a duty the host broke. -/
def Obligations.BusyEngineAlwaysHasAStep : Prop :=
  ∀ s : State, Inv s →
    step s ≠ .fault .noEnabledStep ∧
    (s.callState = .busy → step s = .fault .inputNotPlaced → s.mode = 0#1 ∨ s.dec.phase = .map) ∧
    (∀ n, step s ≠ .refused (.notModelled n))

/-! ### Calls on the machine -/

/-- R259, R251, R328: an encode call leaves BUSY once, in DONE, after at most `2N + 5` engine steps, with
`OC = encode(b)`. -/
def Obligations.EncodeCallComputesEncode : Prop :=
  ∀ (s : State) (b : List Byte), ReadyToEncode s b →
    ∃ k t, k ≤ 2 * b.length + 5 ∧ runFor (k + 1) s = .next t ∧
      (∀ j < k, ∃ u, runFor (j + 1) s = .next u ∧ u.callState = .busy) ∧
      t.callState = .done ∧ t.errCode = 0 ∧ encodeCall b = some t.mem.oc ∧ t.outLen.toNat = t.mem.oc.length ∧
      t.mem.ib = s.mem.ib ∧ t.mem.ic = s.mem.ic

/-- R259, R251, R288: a decode call leaves BUSY once, in DONE with `OB = out` when `decode(c) = Ok(out)`, in FAILED with the
failure's code when `decode(c) = Fail(K)`. -/
def Obligations.DecodeCallComputesDecode : Prop :=
  ∀ (s : State) (c : List CPIn), ReadyToDecode s c →
    ∃ k t, runFor (k + 1) s = .next t ∧
      (∀ j < k, ∃ u, runFor (j + 1) s = .next u ∧ u.callState = .busy) ∧
      t.mem.ib = s.mem.ib ∧ t.mem.ic = s.mem.ic ∧
      (∀ out, decodeCall c = .ok out →
        t.callState = .done ∧ t.errCode = 0 ∧ t.mem.ob = out ∧ t.outLen.toNat = out.length) ∧
      (∀ e, decodeCall c = .error e → t.callState = .failed ∧ t.errCode = e.code ∧ t.outLen = 0)

/-- R253: what the host sees of a call, at every step of it, depends on `CTRL.MODE`, `IN_LEN` and the selected engine's
input buffer below `IN_LEN` at START and on nothing else in the state: not on the other buffers, the working registers or
the results of an earlier call. The model's choices in it: where the write of `CTRL` changes MODE, which engine it starts is
open and both input buffers are compared (log entry 3); both output buffers are compared in DONE, since START empties both
(log entry 7); where a run stops, both stop alike (log entries 5 and 8). -/
def Obligations.CallsAreIndependent : Prop :=
  ∀ (s t : State) (v : RegWord) (k : Nat), s.mem.wf → t.mem.wf → s.callState ≠ .busy → t.callState ≠ .busy →
    s.mode = t.mode → s.inLen = t.inLen →
    (s.mode = 0#1 ∨ ctrlModeBit v = 0#1 → ∀ i < s.inLen.toNat, s.readIB i = t.readIB i) →
    (s.mode = 1#1 ∨ ctrlModeBit v = 1#1 → ∀ j < s.inLen.toNat, s.readIC j = t.readIC j) →
    s.pending = [.writeReg .ctrl v] → t.pending = [.writeReg .ctrl v] → ctrlStartBit v = true →
      SameOutcome (runFor (k + 1) s) (runFor (k + 1) t)

/-! ### The host's interface -/

/-- R320: the host-visible registers after reset, and no engine has an enabled step; that an idle step answers the
same state is the model's choice (log entry 17). -/
def Obligations.ResetWaitsForStart : Prop :=
  State.reset.mode = 0 ∧ State.reset.callState = .idle ∧ State.reset.errCode = 0 ∧ State.reset.inLen = 0 ∧
  State.reset.outLen = 0 ∧ step State.reset = .next State.reset

/-- R320, R32: reset while no call is in progress: the host-visible registers of R320, and the engines wait for a START.
That the host's script goes on (log entry 22) and that any number of idle steps answer the same state (log entry 17) are
the model's choices. -/
def Obligations.ResetReturnsToIdle : Prop :=
  ∀ (s : State) (rest : List HostCmd), s.callState ≠ .busy → s.pending = .reset :: rest →
    ∃ t, step s = .next t ∧ t.mode = 0 ∧ t.callState = .idle ∧ t.errCode = 0 ∧ t.inLen = 0 ∧ t.outLen = 0 ∧
      t.pending = rest ∧ ∀ k, runFor k { t with pending := [] } = .next { t with pending := [] }

/-- R252, R295: in IDLE, DONE and FAILED no engine has an enabled step; an idle step answers the same state (the
model's choice, log entry 17). -/
def Obligations.NoEngineStepOutsideACall : Prop :=
  ∀ s : State, s.callState ≠ .busy → s.pending = [] → ∀ k, runFor k s = .next s

/-- R250, R321, R43: START while not BUSY, MODE unchanged by the write. That both output buffers are emptied is DEDUCED
(log entry 7); the host's script is the model's (log entry 2). -/
def Obligations.StartBeginsACall : Prop :=
  ∀ (s : State) (v : RegWord) (rest : List HostCmd), s.callState ≠ .busy → s.pending = .writeReg .ctrl v :: rest →
    ctrlStartBit v = true → ctrlModeBit v = s.mode → (s.mode = 0#1 → s.inLen.toNat < 2 ^ 48) →
      ∃ t, step s = .next t ∧ t.callState = .busy ∧ t.errCode = 0 ∧ t.outLen = 0 ∧ t.mode = s.mode ∧
        t.inLen = s.inLen ∧ t.pending = rest ∧ t.mem = { s.mem with oc := [], ob := [] } ∧
        (s.mode = 0#1 → t.dec = s.dec ∧ t.enc.n = s.inLen.setWidth 48 ∧ t.enc.cur = 0 ∧ t.enc.hcnt = 0 ∧
          t.enc.ocnt = 0 ∧ t.enc.rlen = 0 ∧ t.enc.psub = 0 ∧ t.enc.phase = .header) ∧
        (s.mode = 1#1 → t.enc = s.enc ∧ t.dec.m = s.inLen ∧ t.dec.mcur = 0 ∧ t.dec.scur = 0 ∧ t.dec.ocnt = 0 ∧
          t.dec.ovf = false ∧ t.dec.rlen = 0 ∧ t.dec.psub = 0 ∧ t.dec.phase = .map)

/-- The model's choice where the spec leaves U3 open (log entry 8): START of an encode of 2^48 bytes or more is refused. -/
def Obligations.OverlongEncodeIsRefused : Prop :=
  ∀ (s : State) (v : RegWord) (rest : List HostCmd), s.callState ≠ .busy → s.pending = .writeReg .ctrl v :: rest →
    ctrlStartBit v = true → ctrlModeBit v = 0#1 → s.mode = 0#1 → 2 ^ 48 ≤ s.inLen.toNat →
      step s = .refused .encodeTooLong

/-- R30, R31, R250, U14: while BUSY every register write is ignored, START included, and not remembered; while not BUSY
MODE and `IN_LEN` are stored, a 0 in START does nothing and writes to read-only registers are ignored. Nothing else
changes. The 64-bit host word is the model's choice (log entry 1). -/
def Obligations.RegisterWritesTakeTheirFields : Prop :=
  ∀ (s : State) (v : RegWord) (rest : List HostCmd),
    (s.callState = .busy → ∀ r, s.pending = .writeReg r v :: rest → step s = .next { s with pending := rest }) ∧
    (s.callState ≠ .busy → s.pending = .writeReg .inLen v :: rest →
      step s = .next { s with pending := rest, inLen := v.extractLsb' 0 49 }) ∧
    (s.callState ≠ .busy → s.pending = .writeReg .ctrl v :: rest → v.getLsbD 1 = false →
      step s = .next { s with pending := rest, mode := v.extractLsb' 0 1 }) ∧
    (s.callState ≠ .busy → ∀ r ∈ [HostReg.status, .err, .outLen], s.pending = .writeReg r v :: rest →
      step s = .next { s with pending := rest })

/-- R30, R31, R32: the bits a register read returns: the fields in their places, every other bit 0, START always 0. The
64-bit host word is the model's choice (log entry 1). -/
def Obligations.RegisterReadBits : Prop :=
  ∀ (s : State) (i : Nat),
    (s.readReg .ctrl).getLsbD i = (decide (i = 0) && s.mode.getLsbD 0) ∧
    (s.readReg .status).toNat =
      (match s.callState with | .idle => 0 | .busy => 1 | .done => 2 | .failed => 3) ∧
    (s.readReg .err).getLsbD i = (decide (i < 3) && s.errCode.getLsbD i) ∧
    (s.readReg .inLen).toNat = s.inLen.toNat ∧
    (s.callState ≠ .busy → (s.readReg .outLen).toNat = s.outLen.toNat)

/-- R60, R61, R72: placing an element of an input buffer while not BUSY: reading it gives the element, every other index of
both buffers reads as before, and nothing else changes. -/
def Obligations.PlacedElementsReadBack : Prop :=
  ∀ (s : State) (rest : List HostCmd), s.callState ≠ .busy →
    (∀ (i : Len48) (b : Byte), s.pending = .writeIB i b :: rest →
      ∃ t, step s = .next t ∧ t.readIB i.toNat = some b ∧ (∀ j, j ≠ i.toNat → t.readIB j = s.readIB j) ∧
        t = { s with pending := rest, mem := { s.mem with ib := t.mem.ib } }) ∧
    (∀ (i : Len49) (c : CPIn), s.pending = .writeIC i c :: rest →
      ∃ t, step s = .next t ∧ t.readIC i.toNat = some c ∧ (∀ j, j ≠ i.toNat → t.readIC j = s.readIC j) ∧
        t = { s with pending := rest, mem := { s.mem with ic := t.mem.ic } })

/-- R251, R32: after DONE the host's read of an element of the output buffer delivers that element; nothing in the
registers or buffers changes. The field `readData` is the model's choice (log entry 11). -/
def Obligations.ResultsReadBack : Prop :=
  ∀ (s : State) (rest : List HostCmd), s.callState = .done →
    (∀ (i : Len49) (c : CPOut), s.pending = .readOC i :: rest → s.mem.oc[i.toNat]? = some c →
      ∃ t, step s = .next t ∧ t.readData = c.setWidth 64 ∧
        t = { s with pending := rest, readData := t.readData, freeCount := t.freeCount }) ∧
    (∀ (i : Len48) (b : Byte), s.pending = .readOB i :: rest → s.mem.ob[i.toNat]? = some b →
      ∃ t, step s = .next t ∧ t.readData = b.setWidth 64 ∧
        t = { s with pending := rest, readData := t.readData, freeCount := t.freeCount })

/-- R30, R249: a register read, and the end of a wait, deliver the register's word; nothing in the registers or buffers
changes. A wait in DONE or FAILED ends at once. The fields `readData` and `freeCount` are the model's choice (log entries
6 and 11). -/
def Obligations.RegisterReadsDeliver : Prop :=
  ∀ (s : State) (rest : List HostCmd),
    (∀ r, s.pending = .readReg r :: rest →
      step s = .next { s with pending := rest, readData := s.readReg r, freeCount := s.freeCount + 1 }) ∧
    (s.pending = .waitDone :: rest → s.callState = .done ∨ s.callState = .failed →
      step s = .next { s with pending := rest, readData := s.readReg .status, freeCount := s.freeCount + 1 })
end

