-- ==== Sys2Proof/Laws/Codec.lean ====
section
/-! SUPPORT. The small lemmas of symbols, code points, tokens and the code-point mapping. -/

namespace Sys2Proof

/-! ### Fields of an assembled symbol -/

theorem getLsbD_run (t : BitVec 2) (len : RunLen) (i : Nat) :
    BitVec.getLsbD (w := 12) (t ++ len : BitVec (2 + 10)) i = if i < 10 then len.getLsbD i else t.getLsbD (i - 10) := by
  refine BitVec.getLsbD_append.trans ?_
  by_cases h : i < 10 <;> simp [h]

theorem getLsbD_byte (t : BitVec 4) (b : Byte) (i : Nat) :
    BitVec.getLsbD (w := 12) (t ++ b : BitVec (4 + 8)) i = if i < 8 then b.getLsbD i else t.getLsbD (i - 8) := by
  refine BitVec.getLsbD_append.trans ?_
  by_cases h : i < 8 <;> simp [h]

@[simp] theorem symTag_run (t : BitVec 2) (len : RunLen) : symTag (t ++ len : BitVec (2 + 10)) = t := by
  unfold symTag
  ext i hi
  simp [getLsbD_run, BitVec.getLsbD_eq_getElem hi]

@[simp] theorem symLen_run (t : BitVec 2) (len : RunLen) : symLen (t ++ len : BitVec (2 + 10)) = len := by
  unfold symLen
  ext i hi
  simp [getLsbD_run, hi]

@[simp] theorem symTop_byte (t : BitVec 4) (b : Byte) : symTop (t ++ b : BitVec (4 + 8)) = t := by
  unfold symTop
  ext i hi
  simp [getLsbD_byte, BitVec.getLsbD_eq_getElem hi]

@[simp] theorem symByte_byte (t : BitVec 4) (b : Byte) : symByte (t ++ b : BitVec (4 + 8)) = b := by
  unfold symByte
  ext i hi
  simp [getLsbD_byte, hi]

theorem symTag_byte (t : BitVec 4) (b : Byte) : symTag (t ++ b : BitVec (4 + 8)) = t.extractLsb' 2 2 := by
  unfold symTag
  ext i hi
  have h : ¬ 10 + i < 8 := by omega
  have h2 : 10 + i - 8 = 2 + i := by omega
  simp [getLsbD_byte, h, h2]

theorem symHigh_byte (t : BitVec 4) (b : Byte) : symHigh (t ++ b : BitVec (4 + 8)) = t.extractLsb' 0 2 := by
  unfold symHigh
  ext i hi
  simp [getLsbD_byte]

/-! ### Code points -/

theorem codePoint_toNat (w : Sym) : (codePoint w).toNat = 0xE000 + w.toNat := by
  have := w.isLt
  simp only [codePoint, BitVec.toNat_add, BitVec.toNat_setWidth, BitVec.toNat_ofNat]
  omega

theorem inRange_iff (c : CPIn) : inRange c = true ↔ 0xE000 ≤ c.toNat ∧ c.toNat ≤ 0xEFFF := by
  simp [inRange, Config.cpBase, Config.cpLast, BitVec.le_def]

namespace Machine

/-! ### Tokens -/

@[simp] theorem rep_zero {α : Type} (u : List α) : rep u 0 = [] := rfl

@[simp] theorem rep_succ {α : Type} (u : List α) (n : Nat) : rep u (n + 1) = u ++ rep u n := rfl

theorem rep_length {α : Type} (u : List α) (n : Nat) : (rep u n).length = n * u.length := by
  induction n with
  | zero => simp
  | succ n ih => simp [ih, Nat.add_mul]; omega

theorem rep_add {α : Type} (u : List α) (m n : Nat) : rep u (m + n) = rep u m ++ rep u n := by
  induction m with
  | zero => simp
  | succ m ih => rw [show m + 1 + n = m + n + 1 by omega]; simp [ih]

@[simp] theorem decompress_nil : decompress [] = [] := rfl

@[simp] theorem decompress_cons (t : Token) (ts : List Token) : decompress (t :: ts) = t.expand ++ decompress ts := by
  simp [decompress]

theorem decompress_append (ts us : List Token) : decompress (ts ++ us) = decompress ts ++ decompress us := by
  simp [decompress]

/-! ### Run measurement -/

theorem leadingCount_le (v : Byte) (l : List Byte) : leadingCount v l ≤ l.length := by
  induction l with
  | nil => simp [leadingCount]
  | cons x t ih => unfold leadingCount; split <;> simp; omega

theorem zcount_le (b : List Byte) (i : Nat) : zcount b i ≤ b.length - i := by
  simpa [zcount] using leadingCount_le 0 (b.drop i)

theorem fcount_le (b : List Byte) (i : Nat) : fcount b i ≤ b.length - i := by
  simpa [fcount] using leadingCount_le 0xFF (b.drop i)

end Machine

end Sys2Proof
end

