-- ==== Sys2Proof/Laws/State.lean ====
section
/-! SUPPORT. One lemma per field per named update of the state, so that no later proof unfolds an update. -/

namespace Sys2Proof.Machine

@[simp] theorem State.setEnc_mode (s : State) (e : EncRegs) : (s.setEnc e).mode = s.mode := rfl
@[simp] theorem State.setEnc_callState (s : State) (e : EncRegs) : (s.setEnc e).callState = s.callState := rfl
@[simp] theorem State.setEnc_errCode (s : State) (e : EncRegs) : (s.setEnc e).errCode = s.errCode := rfl
@[simp] theorem State.setEnc_inLen (s : State) (e : EncRegs) : (s.setEnc e).inLen = s.inLen := rfl
@[simp] theorem State.setEnc_outLen (s : State) (e : EncRegs) : (s.setEnc e).outLen = s.outLen := rfl
@[simp] theorem State.setEnc_enc (s : State) (e : EncRegs) : (s.setEnc e).enc = e := rfl
@[simp] theorem State.setEnc_dec (s : State) (e : EncRegs) : (s.setEnc e).dec = s.dec := rfl
@[simp] theorem State.setEnc_mem (s : State) (e : EncRegs) : (s.setEnc e).mem = s.mem := rfl
@[simp] theorem State.setEnc_pending (s : State) (e : EncRegs) : (s.setEnc e).pending = s.pending := rfl
@[simp] theorem State.setEnc_readData (s : State) (e : EncRegs) : (s.setEnc e).readData = s.readData := rfl
@[simp] theorem State.setEnc_freeCount (s : State) (e : EncRegs) : (s.setEnc e).freeCount = s.freeCount := rfl

@[simp] theorem State.setDec_mode (s : State) (d : DecRegs) : (s.setDec d).mode = s.mode := rfl
@[simp] theorem State.setDec_callState (s : State) (d : DecRegs) : (s.setDec d).callState = s.callState := rfl
@[simp] theorem State.setDec_errCode (s : State) (d : DecRegs) : (s.setDec d).errCode = s.errCode := rfl
@[simp] theorem State.setDec_inLen (s : State) (d : DecRegs) : (s.setDec d).inLen = s.inLen := rfl
@[simp] theorem State.setDec_outLen (s : State) (d : DecRegs) : (s.setDec d).outLen = s.outLen := rfl
@[simp] theorem State.setDec_enc (s : State) (d : DecRegs) : (s.setDec d).enc = s.enc := rfl
@[simp] theorem State.setDec_dec (s : State) (d : DecRegs) : (s.setDec d).dec = d := rfl
@[simp] theorem State.setDec_mem (s : State) (d : DecRegs) : (s.setDec d).mem = s.mem := rfl
@[simp] theorem State.setDec_pending (s : State) (d : DecRegs) : (s.setDec d).pending = s.pending := rfl
@[simp] theorem State.setDec_readData (s : State) (d : DecRegs) : (s.setDec d).readData = s.readData := rfl
@[simp] theorem State.setDec_freeCount (s : State) (d : DecRegs) : (s.setDec d).freeCount = s.freeCount := rfl

@[simp] theorem State.placeIB_mode (s : State) (i : Nat) (b : Byte) : (s.placeIB i b).mode = s.mode := rfl
@[simp] theorem State.placeIB_callState (s : State) (i : Nat) (b : Byte) : (s.placeIB i b).callState = s.callState := rfl
@[simp] theorem State.placeIB_errCode (s : State) (i : Nat) (b : Byte) : (s.placeIB i b).errCode = s.errCode := rfl
@[simp] theorem State.placeIB_inLen (s : State) (i : Nat) (b : Byte) : (s.placeIB i b).inLen = s.inLen := rfl
@[simp] theorem State.placeIB_outLen (s : State) (i : Nat) (b : Byte) : (s.placeIB i b).outLen = s.outLen := rfl
@[simp] theorem State.placeIB_enc (s : State) (i : Nat) (b : Byte) : (s.placeIB i b).enc = s.enc := rfl
@[simp] theorem State.placeIB_dec (s : State) (i : Nat) (b : Byte) : (s.placeIB i b).dec = s.dec := rfl
@[simp] theorem State.placeIB_mem (s : State) (i : Nat) (b : Byte) : (s.placeIB i b).mem = { s.mem with ib := place s.mem.ib i b } := rfl
@[simp] theorem State.placeIB_pending (s : State) (i : Nat) (b : Byte) : (s.placeIB i b).pending = s.pending := rfl
@[simp] theorem State.placeIB_readData (s : State) (i : Nat) (b : Byte) : (s.placeIB i b).readData = s.readData := rfl
@[simp] theorem State.placeIB_freeCount (s : State) (i : Nat) (b : Byte) : (s.placeIB i b).freeCount = s.freeCount := rfl

@[simp] theorem State.placeIC_mode (s : State) (i : Nat) (c : CPIn) : (s.placeIC i c).mode = s.mode := rfl
@[simp] theorem State.placeIC_callState (s : State) (i : Nat) (c : CPIn) : (s.placeIC i c).callState = s.callState := rfl
@[simp] theorem State.placeIC_errCode (s : State) (i : Nat) (c : CPIn) : (s.placeIC i c).errCode = s.errCode := rfl
@[simp] theorem State.placeIC_inLen (s : State) (i : Nat) (c : CPIn) : (s.placeIC i c).inLen = s.inLen := rfl
@[simp] theorem State.placeIC_outLen (s : State) (i : Nat) (c : CPIn) : (s.placeIC i c).outLen = s.outLen := rfl
@[simp] theorem State.placeIC_enc (s : State) (i : Nat) (c : CPIn) : (s.placeIC i c).enc = s.enc := rfl
@[simp] theorem State.placeIC_dec (s : State) (i : Nat) (c : CPIn) : (s.placeIC i c).dec = s.dec := rfl
@[simp] theorem State.placeIC_mem (s : State) (i : Nat) (c : CPIn) : (s.placeIC i c).mem = { s.mem with ic := place s.mem.ic i c } := rfl
@[simp] theorem State.placeIC_pending (s : State) (i : Nat) (c : CPIn) : (s.placeIC i c).pending = s.pending := rfl
@[simp] theorem State.placeIC_readData (s : State) (i : Nat) (c : CPIn) : (s.placeIC i c).readData = s.readData := rfl
@[simp] theorem State.placeIC_freeCount (s : State) (i : Nat) (c : CPIn) : (s.placeIC i c).freeCount = s.freeCount := rfl

@[simp] theorem State.appendOC_mode (s : State) (c : CPOut) : (s.appendOC c).mode = s.mode := rfl
@[simp] theorem State.appendOC_callState (s : State) (c : CPOut) : (s.appendOC c).callState = s.callState := rfl
@[simp] theorem State.appendOC_errCode (s : State) (c : CPOut) : (s.appendOC c).errCode = s.errCode := rfl
@[simp] theorem State.appendOC_inLen (s : State) (c : CPOut) : (s.appendOC c).inLen = s.inLen := rfl
@[simp] theorem State.appendOC_outLen (s : State) (c : CPOut) : (s.appendOC c).outLen = s.outLen := rfl
@[simp] theorem State.appendOC_enc (s : State) (c : CPOut) : (s.appendOC c).enc = s.enc := rfl
@[simp] theorem State.appendOC_dec (s : State) (c : CPOut) : (s.appendOC c).dec = s.dec := rfl
@[simp] theorem State.appendOC_mem (s : State) (c : CPOut) : (s.appendOC c).mem = { s.mem with oc := s.mem.oc ++ [c] } := rfl
@[simp] theorem State.appendOC_pending (s : State) (c : CPOut) : (s.appendOC c).pending = s.pending := rfl
@[simp] theorem State.appendOC_readData (s : State) (c : CPOut) : (s.appendOC c).readData = s.readData := rfl
@[simp] theorem State.appendOC_freeCount (s : State) (c : CPOut) : (s.appendOC c).freeCount = s.freeCount := rfl

@[simp] theorem State.appendOB_mode (s : State) (b : Byte) : (s.appendOB b).mode = s.mode := rfl
@[simp] theorem State.appendOB_callState (s : State) (b : Byte) : (s.appendOB b).callState = s.callState := rfl
@[simp] theorem State.appendOB_errCode (s : State) (b : Byte) : (s.appendOB b).errCode = s.errCode := rfl
@[simp] theorem State.appendOB_inLen (s : State) (b : Byte) : (s.appendOB b).inLen = s.inLen := rfl
@[simp] theorem State.appendOB_outLen (s : State) (b : Byte) : (s.appendOB b).outLen = s.outLen := rfl
@[simp] theorem State.appendOB_enc (s : State) (b : Byte) : (s.appendOB b).enc = s.enc := rfl
@[simp] theorem State.appendOB_dec (s : State) (b : Byte) : (s.appendOB b).dec = s.dec := rfl
@[simp] theorem State.appendOB_mem (s : State) (b : Byte) : (s.appendOB b).mem = { s.mem with ob := s.mem.ob ++ [b] } := rfl
@[simp] theorem State.appendOB_pending (s : State) (b : Byte) : (s.appendOB b).pending = s.pending := rfl
@[simp] theorem State.appendOB_readData (s : State) (b : Byte) : (s.appendOB b).readData = s.readData := rfl
@[simp] theorem State.appendOB_freeCount (s : State) (b : Byte) : (s.appendOB b).freeCount = s.freeCount := rfl

@[simp] theorem State.emitByte_mode (s : State) (b : Byte) : (s.emitByte b).mode = s.mode := rfl
@[simp] theorem State.emitByte_callState (s : State) (b : Byte) : (s.emitByte b).callState = s.callState := rfl
@[simp] theorem State.emitByte_errCode (s : State) (b : Byte) : (s.emitByte b).errCode = s.errCode := rfl
@[simp] theorem State.emitByte_inLen (s : State) (b : Byte) : (s.emitByte b).inLen = s.inLen := rfl
@[simp] theorem State.emitByte_outLen (s : State) (b : Byte) : (s.emitByte b).outLen = s.outLen := rfl
@[simp] theorem State.emitByte_enc (s : State) (b : Byte) : (s.emitByte b).enc = s.enc := rfl
@[simp] theorem State.emitByte_dec (s : State) (b : Byte) : (s.emitByte b).dec = s.dec.count := rfl
@[simp] theorem State.emitByte_mem (s : State) (b : Byte) : (s.emitByte b).mem = { s.mem with ob := s.mem.ob ++ [b] } := rfl
@[simp] theorem State.emitByte_pending (s : State) (b : Byte) : (s.emitByte b).pending = s.pending := rfl
@[simp] theorem State.emitByte_readData (s : State) (b : Byte) : (s.emitByte b).readData = s.readData := rfl
@[simp] theorem State.emitByte_freeCount (s : State) (b : Byte) : (s.emitByte b).freeCount = s.freeCount := rfl

@[simp] theorem State.emitSymbol_mode (s : State) (w : Sym) : (s.emitSymbol w).mode = s.mode := rfl
@[simp] theorem State.emitSymbol_callState (s : State) (w : Sym) : (s.emitSymbol w).callState = s.callState := rfl
@[simp] theorem State.emitSymbol_errCode (s : State) (w : Sym) : (s.emitSymbol w).errCode = s.errCode := rfl
@[simp] theorem State.emitSymbol_inLen (s : State) (w : Sym) : (s.emitSymbol w).inLen = s.inLen := rfl
@[simp] theorem State.emitSymbol_outLen (s : State) (w : Sym) : (s.emitSymbol w).outLen = s.outLen := rfl
@[simp] theorem State.emitSymbol_enc (s : State) (w : Sym) : (s.emitSymbol w).enc = { s.enc with ocnt := s.enc.ocnt + 1 } := rfl
@[simp] theorem State.emitSymbol_dec (s : State) (w : Sym) : (s.emitSymbol w).dec = s.dec := rfl
@[simp] theorem State.emitSymbol_mem (s : State) (w : Sym) : (s.emitSymbol w).mem = { s.mem with oc := s.mem.oc ++ [codePoint w] } := rfl
@[simp] theorem State.emitSymbol_pending (s : State) (w : Sym) : (s.emitSymbol w).pending = s.pending := rfl
@[simp] theorem State.emitSymbol_readData (s : State) (w : Sym) : (s.emitSymbol w).readData = s.readData := rfl
@[simp] theorem State.emitSymbol_freeCount (s : State) (w : Sym) : (s.emitSymbol w).freeCount = s.freeCount := rfl

@[simp] theorem State.failCall_mode (s : State) (k : FailureKind) : (s.failCall k).mode = s.mode := rfl
@[simp] theorem State.failCall_callState (s : State) (k : FailureKind) : (s.failCall k).callState = .failed := rfl
@[simp] theorem State.failCall_errCode (s : State) (k : FailureKind) : (s.failCall k).errCode = k.code := rfl
@[simp] theorem State.failCall_inLen (s : State) (k : FailureKind) : (s.failCall k).inLen = s.inLen := rfl
@[simp] theorem State.failCall_outLen (s : State) (k : FailureKind) : (s.failCall k).outLen = 0 := rfl
@[simp] theorem State.failCall_enc (s : State) (k : FailureKind) : (s.failCall k).enc = s.enc := rfl
@[simp] theorem State.failCall_dec (s : State) (k : FailureKind) : (s.failCall k).dec = { s.dec with phase := .ended } := rfl
@[simp] theorem State.failCall_mem (s : State) (k : FailureKind) : (s.failCall k).mem = s.mem := rfl
@[simp] theorem State.failCall_pending (s : State) (k : FailureKind) : (s.failCall k).pending = s.pending := rfl
@[simp] theorem State.failCall_readData (s : State) (k : FailureKind) : (s.failCall k).readData = s.readData := rfl
@[simp] theorem State.failCall_freeCount (s : State) (k : FailureKind) : (s.failCall k).freeCount = s.freeCount := rfl

@[simp] theorem State.finishEnc_mode (s : State) : (s.finishEnc).mode = s.mode := rfl
@[simp] theorem State.finishEnc_callState (s : State) : (s.finishEnc).callState = .done := rfl
@[simp] theorem State.finishEnc_errCode (s : State) : (s.finishEnc).errCode = 0 := rfl
@[simp] theorem State.finishEnc_inLen (s : State) : (s.finishEnc).inLen = s.inLen := rfl
@[simp] theorem State.finishEnc_outLen (s : State) : (s.finishEnc).outLen = s.enc.ocnt := rfl
@[simp] theorem State.finishEnc_enc (s : State) : (s.finishEnc).enc = { s.enc with phase := .ended } := rfl
@[simp] theorem State.finishEnc_dec (s : State) : (s.finishEnc).dec = s.dec := rfl
@[simp] theorem State.finishEnc_mem (s : State) : (s.finishEnc).mem = s.mem := rfl
@[simp] theorem State.finishEnc_pending (s : State) : (s.finishEnc).pending = s.pending := rfl
@[simp] theorem State.finishEnc_readData (s : State) : (s.finishEnc).readData = s.readData := rfl
@[simp] theorem State.finishEnc_freeCount (s : State) : (s.finishEnc).freeCount = s.freeCount := rfl

@[simp] theorem State.finishDec_mode (s : State) : (s.finishDec).mode = s.mode := rfl
@[simp] theorem State.finishDec_callState (s : State) : (s.finishDec).callState = .done := rfl
@[simp] theorem State.finishDec_errCode (s : State) : (s.finishDec).errCode = 0 := rfl
@[simp] theorem State.finishDec_inLen (s : State) : (s.finishDec).inLen = s.inLen := rfl
@[simp] theorem State.finishDec_outLen (s : State) : (s.finishDec).outLen = s.dec.ocnt.setWidth 49 := rfl
@[simp] theorem State.finishDec_enc (s : State) : (s.finishDec).enc = s.enc := rfl
@[simp] theorem State.finishDec_dec (s : State) : (s.finishDec).dec = { s.dec with phase := .ended } := rfl
@[simp] theorem State.finishDec_mem (s : State) : (s.finishDec).mem = s.mem := rfl
@[simp] theorem State.finishDec_pending (s : State) : (s.finishDec).pending = s.pending := rfl
@[simp] theorem State.finishDec_readData (s : State) : (s.finishDec).readData = s.readData := rfl
@[simp] theorem State.finishDec_freeCount (s : State) : (s.finishDec).freeCount = s.freeCount := rfl

@[simp] theorem State.beginCall_mode (s : State) : (s.beginCall).mode = s.mode := rfl
@[simp] theorem State.beginCall_callState (s : State) : (s.beginCall).callState = .busy := rfl
@[simp] theorem State.beginCall_errCode (s : State) : (s.beginCall).errCode = 0 := rfl
@[simp] theorem State.beginCall_inLen (s : State) : (s.beginCall).inLen = s.inLen := rfl
@[simp] theorem State.beginCall_outLen (s : State) : (s.beginCall).outLen = 0 := rfl
@[simp] theorem State.beginCall_enc (s : State) : (s.beginCall).enc = s.enc := rfl
@[simp] theorem State.beginCall_dec (s : State) : (s.beginCall).dec = s.dec := rfl
@[simp] theorem State.beginCall_mem (s : State) : (s.beginCall).mem = { s.mem with oc := [], ob := [] } := rfl
@[simp] theorem State.beginCall_pending (s : State) : (s.beginCall).pending = s.pending := rfl
@[simp] theorem State.beginCall_readData (s : State) : (s.beginCall).readData = s.readData := rfl
@[simp] theorem State.beginCall_freeCount (s : State) : (s.beginCall).freeCount = s.freeCount := rfl

@[simp] theorem State.startEnc_mode (s : State) : (s.startEnc).mode = s.mode := rfl
@[simp] theorem State.startEnc_callState (s : State) : (s.startEnc).callState = .busy := rfl
@[simp] theorem State.startEnc_errCode (s : State) : (s.startEnc).errCode = 0 := rfl
@[simp] theorem State.startEnc_inLen (s : State) : (s.startEnc).inLen = s.inLen := rfl
@[simp] theorem State.startEnc_outLen (s : State) : (s.startEnc).outLen = 0 := rfl
@[simp] theorem State.startEnc_enc (s : State) : (s.startEnc).enc = EncRegs.start s.inLen s.freeCount := rfl
@[simp] theorem State.startEnc_dec (s : State) : (s.startEnc).dec = s.dec := rfl
@[simp] theorem State.startEnc_mem (s : State) : (s.startEnc).mem = { s.mem with oc := [], ob := [] } := rfl
@[simp] theorem State.startEnc_pending (s : State) : (s.startEnc).pending = s.pending := rfl
@[simp] theorem State.startEnc_readData (s : State) : (s.startEnc).readData = s.readData := rfl
@[simp] theorem State.startEnc_freeCount (s : State) : (s.startEnc).freeCount = s.freeCount + 2 := rfl

@[simp] theorem State.startDec_mode (s : State) : (s.startDec).mode = s.mode := rfl
@[simp] theorem State.startDec_callState (s : State) : (s.startDec).callState = .busy := rfl
@[simp] theorem State.startDec_errCode (s : State) : (s.startDec).errCode = 0 := rfl
@[simp] theorem State.startDec_inLen (s : State) : (s.startDec).inLen = s.inLen := rfl
@[simp] theorem State.startDec_outLen (s : State) : (s.startDec).outLen = 0 := rfl
@[simp] theorem State.startDec_enc (s : State) : (s.startDec).enc = s.enc := rfl
@[simp] theorem State.startDec_dec (s : State) : (s.startDec).dec = DecRegs.start s.inLen s.freeCount := rfl
@[simp] theorem State.startDec_mem (s : State) : (s.startDec).mem = { s.mem with oc := [], ob := [] } := rfl
@[simp] theorem State.startDec_pending (s : State) : (s.startDec).pending = s.pending := rfl
@[simp] theorem State.startDec_readData (s : State) : (s.startDec).readData = s.readData := rfl
@[simp] theorem State.startDec_freeCount (s : State) : (s.startDec).freeCount = s.freeCount + 4 := rfl

@[simp] theorem State.deliver_mode (s : State) (v : RegWord) : (s.deliver v).mode = s.mode := rfl
@[simp] theorem State.deliver_callState (s : State) (v : RegWord) : (s.deliver v).callState = s.callState := rfl
@[simp] theorem State.deliver_errCode (s : State) (v : RegWord) : (s.deliver v).errCode = s.errCode := rfl
@[simp] theorem State.deliver_inLen (s : State) (v : RegWord) : (s.deliver v).inLen = s.inLen := rfl
@[simp] theorem State.deliver_outLen (s : State) (v : RegWord) : (s.deliver v).outLen = s.outLen := rfl
@[simp] theorem State.deliver_enc (s : State) (v : RegWord) : (s.deliver v).enc = s.enc := rfl
@[simp] theorem State.deliver_dec (s : State) (v : RegWord) : (s.deliver v).dec = s.dec := rfl
@[simp] theorem State.deliver_mem (s : State) (v : RegWord) : (s.deliver v).mem = s.mem := rfl
@[simp] theorem State.deliver_pending (s : State) (v : RegWord) : (s.deliver v).pending = s.pending := rfl
@[simp] theorem State.deliver_readData (s : State) (v : RegWord) : (s.deliver v).readData = v := rfl
@[simp] theorem State.deliver_freeCount (s : State) (v : RegWord) : (s.deliver v).freeCount = s.freeCount + 1 := rfl

@[simp] theorem DecRegs.count_m (d : DecRegs) : d.count.m = d.m := rfl
@[simp] theorem DecRegs.count_mcur (d : DecRegs) : d.count.mcur = d.mcur := rfl
@[simp] theorem DecRegs.count_scur (d : DecRegs) : d.count.scur = d.scur := rfl
@[simp] theorem DecRegs.count_phase (d : DecRegs) : d.count.phase = d.phase := rfl
@[simp] theorem DecRegs.count_hdr3 (d : DecRegs) : d.count.hdr3 = d.hdr3 := rfl
@[simp] theorem DecRegs.count_hdr2 (d : DecRegs) : d.count.hdr2 = d.hdr2 := rfl
@[simp] theorem DecRegs.count_hdr1 (d : DecRegs) : d.count.hdr1 = d.hdr1 := rfl
@[simp] theorem DecRegs.count_hdr0 (d : DecRegs) : d.count.hdr0 = d.hdr0 := rfl
@[simp] theorem DecRegs.count_ocnt (d : DecRegs) : d.count.ocnt = d.ocnt + 1 := rfl
@[simp] theorem DecRegs.count_ovf (d : DecRegs) : d.count.ovf = (d.ovf || decide (d.ocnt = 0xFFFFFFFFFFFF#48)) := rfl
@[simp] theorem DecRegs.count_rlen (d : DecRegs) : d.count.rlen = d.rlen := rfl
@[simp] theorem DecRegs.count_rkind (d : DecRegs) : d.count.rkind = d.rkind := rfl
@[simp] theorem DecRegs.count_p0 (d : DecRegs) : d.count.p0 = d.p0 := rfl
@[simp] theorem DecRegs.count_p1 (d : DecRegs) : d.count.p1 = d.p1 := rfl
@[simp] theorem DecRegs.count_psub (d : DecRegs) : d.count.psub = d.psub := rfl

@[simp] theorem DecRegs.loadRun_m (d : DecRegs) (k : BitVec 2) (n : RunLen) : (d.loadRun k n).m = d.m := rfl
@[simp] theorem DecRegs.loadRun_mcur (d : DecRegs) (k : BitVec 2) (n : RunLen) : (d.loadRun k n).mcur = d.mcur := rfl
@[simp] theorem DecRegs.loadRun_scur (d : DecRegs) (k : BitVec 2) (n : RunLen) : (d.loadRun k n).scur = d.scur + 1 := rfl
@[simp] theorem DecRegs.loadRun_phase (d : DecRegs) (k : BitVec 2) (n : RunLen) : (d.loadRun k n).phase = d.phase := rfl
@[simp] theorem DecRegs.loadRun_hdr3 (d : DecRegs) (k : BitVec 2) (n : RunLen) : (d.loadRun k n).hdr3 = d.hdr3 := rfl
@[simp] theorem DecRegs.loadRun_hdr2 (d : DecRegs) (k : BitVec 2) (n : RunLen) : (d.loadRun k n).hdr2 = d.hdr2 := rfl
@[simp] theorem DecRegs.loadRun_hdr1 (d : DecRegs) (k : BitVec 2) (n : RunLen) : (d.loadRun k n).hdr1 = d.hdr1 := rfl
@[simp] theorem DecRegs.loadRun_hdr0 (d : DecRegs) (k : BitVec 2) (n : RunLen) : (d.loadRun k n).hdr0 = d.hdr0 := rfl
@[simp] theorem DecRegs.loadRun_ocnt (d : DecRegs) (k : BitVec 2) (n : RunLen) : (d.loadRun k n).ocnt = d.ocnt := rfl
@[simp] theorem DecRegs.loadRun_ovf (d : DecRegs) (k : BitVec 2) (n : RunLen) : (d.loadRun k n).ovf = d.ovf := rfl
@[simp] theorem DecRegs.loadRun_rlen (d : DecRegs) (k : BitVec 2) (n : RunLen) : (d.loadRun k n).rlen = n := rfl
@[simp] theorem DecRegs.loadRun_rkind (d : DecRegs) (k : BitVec 2) (n : RunLen) : (d.loadRun k n).rkind = k := rfl
@[simp] theorem DecRegs.loadRun_p0 (d : DecRegs) (k : BitVec 2) (n : RunLen) : (d.loadRun k n).p0 = d.p0 := rfl
@[simp] theorem DecRegs.loadRun_p1 (d : DecRegs) (k : BitVec 2) (n : RunLen) : (d.loadRun k n).p1 = d.p1 := rfl
@[simp] theorem DecRegs.loadRun_psub (d : DecRegs) (k : BitVec 2) (n : RunLen) : (d.loadRun k n).psub = d.psub := rfl

@[simp] theorem State.readIB_setEnc (s : State) (e : EncRegs) (i : Nat) : (s.setEnc e).readIB i = s.readIB i := rfl
@[simp] theorem State.readIC_setDec (s : State) (d : DecRegs) (i : Nat) : (s.setDec d).readIC i = s.readIC i := rfl
@[simp] theorem State.readIB_emitSymbol (s : State) (w : Sym) (i : Nat) : (s.emitSymbol w).readIB i = s.readIB i := rfl
@[simp] theorem State.readIC_emitByte (s : State) (b : Byte) (i : Nat) : (s.emitByte b).readIC i = s.readIC i := rfl
@[simp] theorem State.readIC_failCall (s : State) (k : FailureKind) (i : Nat) : (s.failCall k).readIC i = s.readIC i := rfl

end Sys2Proof.Machine
end

