-- ==== Sys2Proof/Laws/Memory.lean ====
section
/-! SUPPORT. The laws of the buffers: a read after a placing, canonical form kept by every memory operation, and what a
whole-buffer read gives. -/

namespace Sys2Proof.Machine

variable {w : Nat}

theorem lookup_place_same (l : List (Nat × BitVec w)) (i : Nat) (v : BitVec w) : lookup (place l i v) i = some v := by
  induction l with
  | nil => simp [place, lookup]
  | cons x t ih =>
    obtain ⟨j, u⟩ := x
    unfold place
    split
    · simp [lookup]
    · split
      · simp [lookup]
      · rename_i h1 h2
        have : j ≠ i := fun h => h2 h.symm
        simp [lookup, this, ih]

theorem lookup_place_other (l : List (Nat × BitVec w)) (i j : Nat) (v : BitVec w) (h : j ≠ i) :
    lookup (place l i v) j = lookup l j := by
  induction l with
  | nil => simp [place, lookup, h.symm]
  | cons x t ih =>
    obtain ⟨k, u⟩ := x
    unfold place
    split
    · simp [lookup, h.symm]
    · split
      · rename_i h1 h2
        subst h2
        simp [lookup, h.symm]
      · simp [lookup, ih]

theorem mem_place {l : List (Nat × BitVec w)} {i : Nat} {v : BitVec w} {x : Nat × BitVec w} (h : x ∈ place l i v) :
    x = (i, v) ∨ x ∈ l := by
  induction l with
  | nil => simpa [place] using h
  | cons y t ih =>
    obtain ⟨j, u⟩ := y
    unfold place at h
    split at h
    · simpa using h
    · split at h
      · rcases List.mem_cons.1 h with h | h
        · exact .inl h
        · exact .inr (List.mem_cons_of_mem _ h)
      · rcases List.mem_cons.1 h with h | h
        · exact .inr (h ▸ List.mem_cons_self)
        · exact (ih h).imp id (List.mem_cons_of_mem _)

theorem place_canonical {bound i : Nat} {l : List (Nat × BitVec w)} {v : BitVec w} (hi : i < bound)
    (h : Canonical bound l) : Canonical bound (place l i v) := by
  refine ⟨?_, fun x hx => ?_⟩
  · have hp := h.1
    clear h
    induction l with
    | nil => simp [place]
    | cons y t ih =>
      obtain ⟨j, u⟩ := y
      have ⟨hj, ht⟩ := List.pairwise_cons.1 hp
      unfold place
      split
      · rename_i h1
        refine List.pairwise_cons.2 ⟨fun x hx => ?_, hp⟩
        rcases List.mem_cons.1 hx with rfl | hx
        · exact h1
        · exact lt_trans h1 (hj x hx)
      · split
        · rename_i h1 h2
          subst h2
          exact List.pairwise_cons.2 ⟨hj, ht⟩
        · rename_i h1 h2
          refine List.pairwise_cons.2 ⟨fun x hx => ?_, ih ht⟩
          rcases mem_place hx with rfl | hx
          · simp only; omega
          · exact hj x hx
  · rcases mem_place hx with rfl | hx
    · exact hi
    · exact h.2 x hx

/-! ### Every memory operation keeps the canonical form -/

theorem placeIB_wf {s : State} {i : Nat} {b : Byte} (hi : i < 2 ^ 48) (h : s.mem.wf) : (s.placeIB i b).mem.wf :=
  ⟨place_canonical hi h.1, h.2⟩

theorem placeIC_wf {s : State} {i : Nat} {c : CPIn} (hi : i < 2 ^ 49) (h : s.mem.wf) : (s.placeIC i c).mem.wf :=
  ⟨h.1, place_canonical hi h.2⟩

theorem appendOC_wf {s : State} {c : CPOut} (h : s.mem.wf) : (s.appendOC c).mem.wf := h

theorem appendOB_wf {s : State} {b : Byte} (h : s.mem.wf) : (s.appendOB b).mem.wf := h

theorem beginCall_wf {s : State} (h : s.mem.wf) : s.beginCall.mem.wf := h

theorem reset_wf : State.reset.mem.wf := by decide

/-! ### Reading a whole input buffer -/

theorem sliceFrom_spec {l : List (Nat × BitVec w)} {i n : Nat} {vs : List (BitVec w)} (h : sliceFrom l i n = some vs) :
    vs.length = n ∧ ∀ j < n, lookup l (i + j) = vs[j]? := by
  induction n generalizing l i vs with
  | zero =>
    have : vs = [] := by cases l <;> simpa [sliceFrom] using h.symm
    simp [this]
  | succ n ih =>
    cases l with
    | nil => simp [sliceFrom] at h
    | cons x t =>
      obtain ⟨k, v⟩ := x
      unfold sliceFrom at h
      split at h
      · rename_i hk
        subst hk
        split at h
        · rename_i us hus
          obtain rfl : v :: us = vs := by simpa using h
          have ⟨h1, h2⟩ := ih hus
          refine ⟨by simp [h1], fun j hj => ?_⟩
          cases j with
          | zero => simp [lookup]
          | succ j =>
            have := h2 j (by omega)
            have hne : k ≠ k + (j + 1) := by omega
            simp only [lookup, hne, if_false]
            rw [show k + (j + 1) = k + 1 + j by omega, this]
            simp
        · simp at h
      · simp at h

theorem inputBytes_length {s : State} {n : Nat} {b : List Byte} (h : s.inputBytes n = some b) : b.length = n :=
  (sliceFrom_spec h).1

theorem inputBytes_readIB {s : State} {n : Nat} {b : List Byte} (h : s.inputBytes n = some b) (j : Nat) (hj : j < n) :
    s.readIB j = b[j]? := by
  simpa [State.readIB] using (sliceFrom_spec h).2 j hj

theorem inputCodePoints_length {s : State} {n : Nat} {cs : List CPIn} (h : s.inputCodePoints n = some cs) :
    cs.length = n :=
  (sliceFrom_spec h).1

theorem inputCodePoints_readIC {s : State} {n : Nat} {cs : List CPIn} (h : s.inputCodePoints n = some cs) (j : Nat)
    (hj : j < n) : s.readIC j = cs[j]? := by
  simpa [State.readIC] using (sliceFrom_spec h).2 j hj

end Sys2Proof.Machine
end

