-- ==== Sys2Proof/Laws/Ops.lean ====
section
/-! SUPPORT. For each shared operation one lemma that says once everything it can do. -/

namespace Sys2Proof.Machine

theorem andThen_eq_next {r : Result} {f : State → Result} {t : State} (h : andThen r f = .next t) :
    ∃ s, r = .next s ∧ f s = .next t := by
  cases r with
  | next s => exact ⟨s, rfl, h⟩
  | fault e => cases h
  | refused e => cases h

@[simp] theorem andThen_next (s : State) (f : State → Result) : andThen (.next s) f = f s := rfl

/-- What reading a symbol can do: fault at an element not placed, raise `OutOfRangeSymbol`, or go on. -/
theorem withSymbol_cases (s : State) (j : Nat) (go : Sym → Result) :
    (s.readIC j = none ∧ withSymbol s j go = .fault .inputNotPlaced) ∨
    (∃ c, s.readIC j = some c ∧ inRange c = false ∧ withSymbol s j go = .next (s.failCall .outOfRangeSymbol)) ∨
    (∃ c w, s.readIC j = some c ∧ fromCodePoint c = .ok w ∧ withSymbol s j go = go w) := by
  unfold withSymbol
  cases h : s.readIC j with
  | none => exact .inl ⟨rfl, rfl⟩
  | some c =>
    cases hc : fromCodePoint c with
    | error e =>
      refine .inr (.inl ⟨c, rfl, ?_, by simp [hc]⟩)
      unfold fromCodePoint at hc
      split at hc
      · cases hc
      · simpa using ‹¬ inRange c = true›
    | ok w => exact .inr (.inr ⟨c, w, rfl, hc, by simp [hc]⟩)

theorem withSymbol_ok {s : State} {j : Nat} {c : CPIn} {w : Sym} (go : Sym → Result) (h : s.readIC j = some c)
    (hc : fromCodePoint c = .ok w) : withSymbol s j go = go w := by
  simp [withSymbol, h, hc]

/-- What reading a pattern's operands can do: raise `MalformedBody` at the bound or at a reserved value, do what reading a
symbol does when it does not go on, or go on with the pair. -/
theorem withPattern_ok {s : State} {j : Nat} {c0 c1 : CPIn} {a c : Sym} (go : Byte → Byte → Result)
    (hb : j + 2 < s.dec.m.toNat) (h0 : s.readIC (j + 1) = some c0) (ha : fromCodePoint c0 = .ok a)
    (h1 : s.readIC (j + 2) = some c1) (hc : fromCodePoint c1 = .ok c) :
    withPattern s j go =
      match patternByte a, patternByte c with
      | some p0, some p1 => go p0 p1
      | _, _ => .next (s.failCall .malformedBody) := by
  have : ¬ s.dec.m.toNat ≤ j + 2 := by omega
  cases ea : patternByte a <;> cases ec : patternByte c <;>
    simp [withPattern, this, withSymbol_ok _ h0 ha, withSymbol_ok _ h1 hc, ea, ec]

theorem withPattern_cut {s : State} {j : Nat} (go : Byte → Byte → Result) (hb : s.dec.m.toNat ≤ j + 2) :
    withPattern s j go = .next (s.failCall .malformedBody) := by
  simp [withPattern, hb]

/-- If reading a pattern answers a next state, it is a failure of the call or what `go` answers. -/
theorem withPattern_next {s t : State} {j : Nat} {go : Byte → Byte → Result} (h : withPattern s j go = .next t) :
    t = s.failCall .malformedBody ∨ t = s.failCall .outOfRangeSymbol ∨ ∃ p0 p1, go p0 p1 = .next t := by
  unfold withPattern at h
  split at h
  · cases h; exact .inl rfl
  · rcases withSymbol_cases s (j + 1) _ with ⟨_, h1⟩ | ⟨_, _, _, h1⟩ | ⟨_, a, _, _, h1⟩
    · rw [h1] at h; cases h
    · rw [h1] at h; cases h; exact .inr (.inl rfl)
    · rw [h1] at h
      rcases withSymbol_cases s (j + 2) _ with ⟨_, h2⟩ | ⟨_, _, _, h2⟩ | ⟨_, c, _, _, h2⟩
      · rw [h2] at h; cases h
      · rw [h2] at h; cases h; exact .inr (.inl rfl)
      · rw [h2] at h
        split at h
        · exact .inr (.inr ⟨_, _, h⟩)
        · cases h; exact .inl rfl

theorem headerSymbol_cases (s : State) (d : DecRegs) :
    (s.dec.m.toNat < 4 ∧ headerSymbol s d = .next (s.failCall .malformedHeader)) ∨
    (4 ≤ s.dec.m.toNat ∧ headerSymbol s d = .next (s.setDec d)) := by
  unfold headerSymbol Config.headerSymbols
  split
  · exact .inl ⟨‹_›, rfl⟩
  · exact .inr ⟨by omega, rfl⟩

/-- What START can do (R250): refuse an over-long encode, or begin one of the two calls. -/
theorem start_cases (s : State) :
    (s.mode = 0#1 ∧ 2 ^ 48 ≤ s.inLen.toNat ∧ s.start = .refused .encodeTooLong) ∨
    (s.mode = 0#1 ∧ s.inLen.toNat < 2 ^ 48 ∧ s.start = .next s.startEnc) ∨
    (s.mode ≠ 0#1 ∧ s.start = .next s.startDec) := by
  unfold State.start
  split
  · split
    · exact .inl ⟨‹_›, ‹_›, rfl⟩
    · exact .inr (.inl ⟨‹_›, by omega, rfl⟩)
  · exact .inr (.inr ⟨‹_›, rfl⟩)

/-- Who moves: the engine, the host, or the host's wait. -/
theorem step_cases (s : State) :
    (s.pending = [] ∧ step s = engineTurn s) ∨
    (∃ rest, s.pending = .letEngine :: rest ∧ step s = engineTurn { s with pending := rest }) ∨
    (∃ rest, s.pending = .waitDone :: rest ∧ s.callState.ended = false ∧ step s = engineTurn s) ∨
    (∃ rest, s.pending = .waitDone :: rest ∧ s.callState.ended = true ∧
      step s = hostAct .waitDone { s with pending := rest }) ∨
    (∃ c rest, s.pending = c :: rest ∧ c ≠ .letEngine ∧ c ≠ .waitDone ∧ step s = hostAct c { s with pending := rest }) := by
  unfold step turn
  cases hp : s.pending with
  | nil => exact .inl ⟨rfl, rfl⟩
  | cons c rest =>
    cases c with
    | letEngine => exact .inr (.inl ⟨rest, rfl, rfl⟩)
    | waitDone =>
      cases he : s.callState.ended with
      | false => exact .inr (.inr (.inl ⟨rest, rfl, rfl, by simp⟩))
      | true => exact .inr (.inr (.inr (.inl ⟨rest, rfl, rfl, by simp⟩)))
    | writeReg r v => exact .inr (.inr (.inr (.inr ⟨_, rest, rfl, by simp, by simp, rfl⟩)))
    | readReg r => exact .inr (.inr (.inr (.inr ⟨_, rest, rfl, by simp, by simp, rfl⟩)))
    | writeIB i b => exact .inr (.inr (.inr (.inr ⟨_, rest, rfl, by simp, by simp, rfl⟩)))
    | writeIC i b => exact .inr (.inr (.inr (.inr ⟨_, rest, rfl, by simp, by simp, rfl⟩)))
    | readOC i => exact .inr (.inr (.inr (.inr ⟨_, rest, rfl, by simp, by simp, rfl⟩)))
    | readOB i => exact .inr (.inr (.inr (.inr ⟨_, rest, rfl, by simp, by simp, rfl⟩)))
    | reset => exact .inr (.inr (.inr (.inr ⟨_, rest, rfl, by simp, by simp, rfl⟩)))

/-- Who moves while BUSY with nothing pending: the engine MODE names. -/
theorem engineTurn_busy {s : State} (h : s.callState = .busy) :
    (s.mode = 0#1 ∧ engineTurn s = encStep s) ∨ (s.mode ≠ 0#1 ∧ engineTurn s = decStep s) := by
  unfold engineTurn
  rw [h]
  by_cases hm : s.mode = 0#1
  · exact .inl ⟨hm, by simp [hm]⟩
  · exact .inr ⟨hm, by simp [hm]⟩

theorem engineTurn_idle {s : State} (h : s.callState ≠ .busy) : engineTurn s = .next s := by
  unfold engineTurn
  cases hc : s.callState with
  | busy => exact absurd hc h
  | idle => rfl
  | done => rfl
  | failed => rfl

end Sys2Proof.Machine
end

