-- ==== Sys2Proof/Laws/PerInstr.lean ====
section
/-! SUPPORT. Per-instruction families: one lemma per constructor of Instr. -/

namespace Sys2Proof.Laws.EncodeDecode

/-- Decoding an instruction's symbol in the instruction's position gives the instruction back. -/
def Statement (i : Instr) : Prop := decodeSym i.position (encodeSym i) = .ok i

theorem hdr3 (h : Sym) : Statement (.hdr3 h) := rfl

theorem hdr2 (h : Sym) : Statement (.hdr2 h) := rfl

theorem hdr1 (h : Sym) : Statement (.hdr1 h) := rfl

theorem hdr0 (h : Sym) : Statement (.hdr0 h) := rfl

theorem lit (b : Byte) : Statement (.lit b) := by
  simp [Statement, Instr.position, encodeSym, decodeSym, decodeToken, symTag_byte, symHigh_byte]

theorem zrun (len : RunLen) : Statement (.zrun len) := by
  simp [Statement, Instr.position, encodeSym, decodeSym, decodeToken]

theorem frun (len : RunLen) : Statement (.frun len) := by
  simp [Statement, Instr.position, encodeSym, decodeSym, decodeToken]

theorem prun (len : RunLen) : Statement (.prun len) := by
  simp [Statement, Instr.position, encodeSym, decodeSym, decodeToken]

theorem pat0 (b : Byte) : Statement (.pat0 b) := by
  simp [Statement, Instr.position, encodeSym, decodeSym, patternByte]

theorem pat1 (b : Byte) : Statement (.pat1 b) := by
  simp [Statement, Instr.position, encodeSym, decodeSym, patternByte]

theorem rsv100 (x : Byte) : Statement (.rsv100 x) := by
  simp [Statement, Instr.position, encodeSym, decodeSym, decodeToken, symTag_byte, symHigh_byte]

theorem rsv200 (x : Byte) : Statement (.rsv200 x) := by
  simp [Statement, Instr.position, encodeSym, decodeSym, decodeToken, symTag_byte, symHigh_byte]

theorem rsv300 (x : Byte) : Statement (.rsv300 x) := by
  simp [Statement, Instr.position, encodeSym, decodeSym, decodeToken, symTag_byte, symHigh_byte]

end Sys2Proof.Laws.EncodeDecode
end

