-- ==== Sys2Proof/Tests/Slice0.lean ====
section
/-! SUPPORT. Small tests. Expected results come from spec/ (the vectors of 95_test_vectors.md or the rule named), not from
the model. The theorems named witness_<statement> show that the hypotheses of a statement can be met together. -/

namespace Sys2Proof.Tests

open Sys2Proof.Machine

/-! ### WellFormed: each check refuses an ill-formed term -/

theorem test_wellFormed_refuses_rsv100 : (Instr.rsv100 0x41#8).wellFormed = false := by decide
theorem test_wellFormed_refuses_rsv200 : (Instr.rsv200 0x00#8).wellFormed = false := by decide
theorem test_wellFormed_refuses_rsv300 : (Instr.rsv300 0xFF#8).wellFormed = false := by decide
theorem test_document_refuses_wrong_position : wellFormedDocument [.lit 0x41#8] = false := by decide
theorem test_document_refuses_short_header : wellFormedDocument [.hdr3 0#12, .hdr2 0#12, .hdr1 0#12] = false := by decide
theorem test_document_refuses_cut_pattern :
    wellFormedDocument [.hdr3 0#12, .hdr2 0#12, .hdr1 0#12, .hdr0 4#12, .prun 2#10, .pat0 1#8] = false := by decide
theorem test_document_refuses_reserved :
    wellFormedDocument [.hdr3 0#12, .hdr2 0#12, .hdr1 0#12, .hdr0 4#12, .rsv100 1#8] = false := by decide
theorem test_document_accepts_empty_payload :
    wellFormedDocument [.hdr3 0#12, .hdr2 0#12, .hdr1 0#12, .hdr0 0#12] = true := by decide

/-! ### Decode: one word of each constructor, written out from R93 to R96 and R104 -/

theorem test_decode_hdr3 : decodeSym .hdr3 0b010000010100#12 = .ok (.hdr3 0x414#12) := by decide
theorem test_decode_hdr2 : decodeSym .hdr2 0b000100000000#12 = .ok (.hdr2 0x100#12) := by decide
theorem test_decode_hdr1 : decodeSym .hdr1 0b110000000001#12 = .ok (.hdr1 0xC01#12) := by decide
theorem test_decode_hdr0 : decodeSym .hdr0 0b000000010100#12 = .ok (.hdr0 0x014#12) := by decide
theorem test_decode_lit : decodeSym .token 0b000001011010#12 = .ok (.lit 0x5A#8) := by decide
theorem test_decode_zrun : decodeSym .token 0b010000010100#12 = .ok (.zrun 20#10) := by decide
theorem test_decode_zrun_max : decodeSym .token 0x7FF#12 = .ok (.zrun 1023#10) := by decide
theorem test_decode_frun : decodeSym .token 0b100000000110#12 = .ok (.frun 6#10) := by decide
theorem test_decode_frun_max : decodeSym .token 0xBFF#12 = .ok (.frun 1023#10) := by decide
theorem test_decode_prun : decodeSym .token 0b110000000101#12 = .ok (.prun 5#10) := by decide
theorem test_decode_pat0 : decodeSym .pat0 0b000001000001#12 = .ok (.pat0 0x41#8) := by decide
theorem test_decode_pat0_refuses_lit_high : decodeSym .pat0 0x141#12 = .error .reservedPattern := by decide
theorem test_decode_pat1 : decodeSym .pat1 0b000011111111#12 = .ok (.pat1 0xFF#8) := by decide
theorem test_decode_pat1_refuses_zrun : decodeSym .pat1 0x414#12 = .error .reservedPattern := by decide
theorem test_decode_rsv100 : decodeSym .token 0b000101000001#12 = .ok (.rsv100 0x41#8) := by decide
theorem test_decode_rsv200 : decodeSym .token 0b001000000000#12 = .ok (.rsv200 0x00#8) := by decide
theorem test_decode_rsv300 : decodeSym .token 0b001111111111#12 = .ok (.rsv300 0xFF#8) := by decide

/-- V6: FROMCP at the ends of the accepted range and just outside them. -/
theorem test_fromCodePoint_ends :
    fromCodePoint 0xE000#21 = .ok 0x000#12 ∧ fromCodePoint 0xEFFF#21 = .ok 0xFFF#12 ∧
    fromCodePoint 0xDFFF#21 = .error .outOfRangeCodePoint ∧ fromCodePoint 0xF000#21 = .error .outOfRangeCodePoint ∧
    fromCodePoint 0x10FFFF#21 = .error .outOfRangeCodePoint := by decide

theorem test_tableWord_prun : decodeTableWord 16 0xC05 = some (.prun 5#10) := by decide
theorem test_tableWord_refuses_wide : decodeTableWord 16 0x1000 = none := by decide

/-- R97: the same word is data, a literal or a pattern byte by its position; P2's document. -/
theorem test_decodeDocument_p2 :
    decodeDocument [0x000#12, 0x000#12, 0x000#12, 0x014#12, 0xC05#12, 0x041#12, 0x042#12, 0x806#12, 0x05A#12] =
      .ok [.hdr3 0#12, .hdr2 0#12, .hdr1 0#12, .hdr0 20#12, .prun 5#10, .pat0 0x41#8, .pat1 0x42#8, .frun 6#10,
        .lit 0x5A#8] := by decide

/-! ### The functions on the vectors of 95_test_vectors.md -/

/-- V1.2. -/
theorem test_encode_v12 : encodeCall [0x41#8, 0x01#8, 0x02#8, 0x41#8] =
    some [0xE000#16, 0xE000#16, 0xE000#16, 0xE004#16, 0xE041#16, 0xE001#16, 0xE002#16, 0xE041#16] := by decide

/-- V2 line 1: greedy zeros shadow a pattern. -/
theorem test_encode_v2_1 : encodeCall (rep [0x00#8] 5 ++ 0x01#8 :: rep [0x00#8, 0x01#8] 3) =
    some [0xE000#16, 0xE000#16, 0xE000#16, 0xE00C#16, 0xE405#16, 0xE001#16, 0xE000#16, 0xE001#16, 0xE000#16, 0xE001#16,
      0xE000#16, 0xE001#16] := by decide

/-- V2 line 2: a short zero start, then a pattern. -/
theorem test_encode_v2_2 : encodeCall (rep [0x00#8] 2 ++ rep [0x00#8, 0x01#8] 4) =
    some [0xE000#16, 0xE000#16, 0xE000#16, 0xE00A#16, 0xE000#16, 0xE000#16, 0xEC04#16, 0xE000#16, 0xE001#16] := by decide

/-- V3: ties at the threshold, and the priority of (a) over (c). -/
theorem test_compress_ties :
    compress (rep [0x00#8] 3) = rep [.literal 0x00#8] 3 ∧ compress (rep [0x00#8] 4) = [.run .zeroRun 4] ∧
    compress (rep [0xFF#8] 4) = [.run .ffRun 4] ∧ compress (rep [0x00#8] 8) = [.run .zeroRun 8] ∧
    compress (rep [0x00#8, 0xFF#8] 4) = [.run (.patternRun 0x00#8 0xFF#8) 4] := by decide

/-- R145 (3), (4), (5). -/
theorem test_compress_corners :
    compress (rep [0x41#8, 0x41#8, 0x42#8] 4) = rep [.literal 0x41#8, .literal 0x41#8, .literal 0x42#8] 4 ∧
    compress (rep [0x41#8] 7) = rep [.literal 0x41#8] 7 ∧
    compress (rep [0x41#8] 9) = [.run (.patternRun 0x41#8 0x41#8) 4, .literal 0x41#8] ∧
    compress (rep [0x00#8] 4 ++ rep [0xFF#8] 4) = [.run .zeroRun 4, .run .ffRun 4] := by decide

/-- V4: SPLIT and packing. -/
theorem test_pack_v4 :
    pack [.run .zeroRun 2050] = [0x7FF#12, 0x7FF#12, 0x404#12] ∧ pack [.run .zeroRun 2046] = [0x7FF#12, 0x7FF#12] ∧
    pack [.run (.patternRun 0xAA#8 0x55#8) 1024] = [0xFFF#12, 0x0AA#12, 0x055#12, 0xC01#12, 0x0AA#12, 0x055#12] ∧
    pack [.run .zeroRun 0] = [0x400#12] := by decide

/-- V5: the header's order. -/
theorem test_writeHeader_v5 : writeHeader 0x123456789ABC#48 = [0x123#12, 0x456#12, 0x789#12, 0xABC#12] := by decide

/-- V6: `400` in a PAT position is reserved, not a ZRUN; a second token cut short. -/
theorem test_unpack_v6 :
    unpack [0xC01#12, 0x400#12, 0x000#12] = .error .malformedBody ∧
    unpack [0xC05#12, 0x041#12, 0x042#12, 0xC05#12, 0x041#12] = .error .malformedBody ∧
    unpack [0x041#12, 0x414#12, 0xC02#12, 0x001#12, 0x002#12, 0x805#12] =
      .ok [.literal 0x41#8, .run .zeroRun 20, .run (.patternRun 0x01#8 0x02#8) 2, .run .ffRun 5] := by decide

/-- V8 lines 8, 9, 11, 18: which failure is reported. -/
theorem test_decode_v8_failures :
    decodeCall [0xE000#21, 0x000A#21] = .error .outOfRangeSymbol ∧
    decodeCall [0xE000#21, 0xE000#21, 0xE000#21, 0xE000#21, 0xE141#21, 0x0020#21] = .error .outOfRangeSymbol ∧
    decodeCall [0xE000#21, 0xE000#21, 0xE000#21, 0xE014#21, 0xE414#21, 0xE041#21] = .error .lengthMismatch ∧
    decodeCall [0xE000#21, 0xE000#21, 0xE000#21, 0xE000#21, 0xE414#21, 0xE141#21] = .error .malformedBody := by decide

/-- V8 lines 19 and 20: legal, non-canonical documents. -/
theorem test_decode_v8_legal :
    decodeCall [0xE000#21, 0xE000#21, 0xE000#21, 0xE000#21, 0xE400#21, 0xE800#21, 0xEC00#21, 0xE041#21, 0xE042#21] =
      .ok [] ∧
    decodeCall [0xE000#21, 0xE000#21, 0xE000#21, 0xE007#21, 0xE402#21, 0xE801#21, 0xEC02#21, 0xE000#21, 0xE000#21] =
      .ok [0x00#8, 0x00#8, 0xFF#8, 0x00#8, 0x00#8, 0x00#8, 0x00#8] := by decide

/-! ### The machine: one step on a small state -/

/-- The elements of a buffer placed at indices 0, 1, .. -/
def placed {w : Nat} (vs : List (BitVec w)) : List (Nat × BitVec w) := vs.zipIdx.map fun x => (x.2, x.1)

/-- DEC in phase `p` of a decode call on the code points `c`, at `SCUR = scur`. -/
def decAt (p : DecPhase) (scur : Nat) (c : List CPIn) : State :=
  { State.reset with
    mode := 1, callState := .busy, inLen := BitVec.ofNat 49 c.length
    dec := { DecRegs.reset with
      m := BitVec.ofNat 49 c.length, mcur := BitVec.ofNat 49 c.length, scur := BitVec.ofNat 49 scur, phase := p }
    mem := { Memory.reset with ic := placed c } }

/-- ENC in phase `p` of an encode call on the bytes `b`. -/
def encAt (p : EncPhase) (b : List Byte) : State :=
  { State.reset with
    callState := .busy, inLen := BitVec.ofNat 49 b.length
    enc := { EncRegs.reset with n := BitVec.ofNat 48 b.length, phase := p }
    mem := { Memory.reset with ib := placed b } }

/-- A host about to do `c`, no call in progress, in mode `m`. -/
def hostAt (m : BitVec 1) (c : HostCmd) : State := { State.reset with mode := m, pending := [c] }

/-- What a predicate says of the next state; false of a fault or a refusal. -/
def nextIs (r : Result) (f : State → Bool) : Bool :=
  match r with
  | .next s => f s
  | .fault _ => false
  | .refused _ => false

/-- P2's document up to its first token. -/
def docP2 : List CPIn := [0xE000#21, 0xE000#21, 0xE000#21, 0xE014#21, 0xEC05#21, 0xE041#21, 0xE042#21]

theorem test_dHdr : nextIs (step (decAt .header 0 docP2)) (fun t =>
    t.dec.hdr == 20#48 && t.dec.scur == 4 && t.dec.phase == .unpack) = true := by decide

theorem test_dTok_prun : nextIs (step (decAt .unpack 4 docP2)) (fun t =>
    t.dec.rkind == 3 && t.dec.rlen == 5 && t.dec.p0 == 0x41#8 && t.dec.p1 == 0x42#8 && t.dec.scur == 7 &&
      t.dec.phase == .expand) = true := by decide

/-- P8 first case: the PRUN is cut short at `SCUR + 2 = M`. -/
theorem test_dTok_prun_cut : nextIs (step (decAt .unpack 4 (docP2.take 6))) (fun t =>
    t.callState == .failed && t.errCode == 5 && t.outLen == 0) = true := by decide

theorem test_dTok_lit : nextIs (step (decAt .unpack 4 (docP2.take 4 ++ [0xE05A#21]))) (fun t =>
    t.mem.ob == [0x5A#8] && t.dec.ocnt == 1 && t.dec.scur == 5) = true := by decide

/-- P8 second case: a reserved literal. -/
theorem test_dTok_rsv : nextIs (step (decAt .unpack 4 (docP2.take 4 ++ [0xE141#21]))) (fun t =>
    t.callState == .failed && t.errCode == 5) = true := by decide

/-- P5: a truncated header. -/
theorem test_dHdr_short : nextIs (step (decAt .header 0 (docP2.take 3))) (fun t =>
    t.callState == .failed && t.errCode == 1) = true := by decide

/-- P6: a character outside the range. -/
theorem test_dMap_out : nextIs (step { decAt .map 0 [0x000A#21] with dec := { DecRegs.reset with m := 1 } }) (fun t =>
    t.callState == .failed && t.errCode == 2) = true := by decide

/-- P7: header 21, 20 bytes. -/
theorem test_dVer_mismatch :
    nextIs (step { decAt .verify 0 [] with dec := { DecRegs.reset with phase := .verify, hdr0 := 21, ocnt := 20 } })
      (fun t => t.callState == .failed && t.errCode == 3) = true := by decide

/-- R170: the count's overflow is sticky, and VERIFY then fails even though the counts agree. -/
theorem test_dVer_overflow :
    nextIs (step { decAt .verify 0 [] with dec := { DecRegs.reset with phase := .verify, ovf := true } })
      (fun t => t.errCode == 3) = true := by decide

/-- P2's trace, step 5: C.PAT at `CUR = 0`. -/
theorem test_eScan_pat : nextIs (step (encAt .body (rep [0x41#8, 0x42#8] 5))) (fun t =>
    t.enc.rkind == 3 && t.enc.p0 == 0x41#8 && t.enc.p1 == 0x42#8 && t.enc.rlen == 5 && t.enc.cur == 10) = true := by decide

/-- P3: `piece = 1023` of a run of 2050. -/
theorem test_eRun_piece :
    nextIs (step { encAt .body [] with enc := { EncRegs.reset with phase := .body, rkind := 1, rlen := 2050 } }) (fun t =>
      t.mem.oc == [0xE7FF#16] && t.enc.rlen == 1027 && t.enc.psub == 0) = true := by decide

/-- V10: an empty encode reaches DONE by E.END. -/
theorem test_eEnd : nextIs (step { encAt .body [] with enc := { EncRegs.reset with phase := .body, ocnt := 4 } }) (fun t =>
    t.callState == .done && t.outLen == 4) = true := by decide

/-- V10: START in BUSY has no effect. -/
theorem test_start_ignored_while_busy :
    nextIs (step { decAt .map 0 docP2 with pending := [.writeReg .ctrl 2#64] }) (fun t =>
      t.callState == .busy && t.dec.m == 7 && t.mode == 1) = true := by decide

/-- R250: START of a decode call samples `IN_LEN`. -/
theorem test_start_decode :
    nextIs (step { hostAt 1 (.writeReg .ctrl 3#64) with inLen := 5, errCode := 1, callState := .failed }) (fun t =>
      t.callState == .busy && t.dec.m == 5 && t.errCode == 0 && t.dec.phase == .map) = true := by decide

/-- U3 (log entry 8). -/
theorem test_start_overlong :
    step { hostAt 0 (.writeReg .ctrl 2#64) with inLen := 0x1000000000000#49 } = .refused .encodeTooLong := rfl

/-- U8 (log entry 9) and U5 (log entry 10). -/
theorem test_host_refusals :
    step { decAt .map 0 docP2 with pending := [.writeIC 0 0xE000#21] } = .refused .inputWriteWhileBusy ∧
    step { decAt .map 0 docP2 with pending := [.reset] } = .refused .resetWhileBusy := ⟨rfl, rfl⟩

/-- U4 (log entry 5): MAP reads an element the host never placed. -/
theorem test_map_not_placed :
    step { decAt .map 0 [] with dec := { DecRegs.reset with m := 1 } } = .fault .inputNotPlaced := rfl

/-- R31: `CTRL.START` reads 0. -/
theorem test_ctrl_reads : (hostAt 1 .letEngine).readReg .ctrl = 1#64 := by decide

/-- withFetchWord: the next step runs exactly the placed instruction. -/
theorem test_withFetchWord_lit :
    step (State.reset.withFetchWord 16 0x05A) = exec (.lit 0x5A#8) (State.reset.withFetchWord 16 0x05A) := rfl

theorem test_withFetchWord_prun :
    step (State.reset.withFetchWord 16 0xC05) = exec (.prun 5#10) (State.reset.withFetchWord 16 0xC05) := rfl

/-! ### Witnesses: the hypotheses of each statement, met together -/

theorem witness_DecodedWordEncodesBack :
    decodeSym .token 0x414#12 = .ok (.zrun 20#10) ∧ decodeSym .pat1 0x0FF#12 = .ok (.pat1 0xFF#8) := by decide

theorem witness_DocumentDecodesToItself :
    wellFormedDocument [.hdr3 0#12, .hdr2 0#12, .hdr1 0#12, .hdr0 4#12, .prun 2#10, .pat0 1#8, .pat1 2#8, .lit 3#8] =
      true := by decide

theorem witness_CodePointMappingIsBijective : encodeCall [] = some (List.replicate 4 0xE000#16) := rfl

theorem witness_HeaderRoundTrips : 4 ≤ [0x000#12, 0x000#12, 0x000#12, 0xFFF#12].length := by decide

theorem witness_MalformedHeaderExactlyWhenShort :
    [0xE000#21, 0x000A#21].length < 4 ∧ ∃ x ∈ [0xE000#21, 0x000A#21], ¬(0xE000 ≤ x.toNat ∧ x.toNat ≤ 0xEFFF) :=
  ⟨by decide, 0x000A#21, by simp, by simp⟩

/-- Inside the buffer and at its end, where the clauses meet. -/
theorem witness_ByteRunCountsAreMaximal :
    1 ≤ [0x00#8, 0x00#8].length ∧ 2 ≤ [0x00#8, 0x00#8].length ∧ 1 + 1 ≤ [0x00#8, 0x00#8].length ∧
    (∀ j < 1, [0x00#8, 0x00#8][1 + j]? = some 0x00#8) ∧ [0x00#8, 0x00#8][1]? ≠ some 0xFF#8 := by decide

/-- Two bytes left, and one byte left. -/
theorem witness_PairCountIsMaximal :
    0 ≤ [0x41#8, 0x42#8].length ∧ 0 + 2 ≤ [0x41#8, 0x42#8].length ∧ [0x41#8, 0x42#8].length < 1 + 2 ∧
    0 + 2 * 1 ≤ [0x41#8, 0x42#8].length ∧
    (∀ j < 1, [0x41#8, 0x42#8][0 + 2 * j]? = [0x41#8, 0x42#8][0]? ∧
      [0x41#8, 0x42#8][0 + 2 * j + 1]? = [0x41#8, 0x42#8][0 + 1]?) := by decide

theorem witness_SelectionFollowsPriority : 0 < [0x41#8].length ∧ 3 < (rep [0x00#8] 4).length := by decide

theorem witness_CompressionIsLossless : Token.run .zeroRun 4 ∈ compress (rep [0x00#8] 4) := by decide

theorem witness_EmittedRunsAreMaximal :
    compress (rep [0x00#8] 4 ++ [0x41#8]) = [] ++ .run .zeroRun 4 :: [.literal 0x41#8] := by decide

theorem witness_SplitCutsRunsAndKeepsBytes :
    1 ≤ 1024 ∧ Token.run .zeroRun 1 ∈ split [.run .zeroRun 1024] := by decide

theorem witness_UnpackInvertsPack :
    unpack [0xC05#12, 0x041#12, 0x042#12] = .ok [.run (.patternRun 0x41#8 0x42#8) 5] ∧
    fromCodePoint 0xE414#21 = .ok 0x414#12 := by decide

theorem witness_PackedCost : (1023 : Nat) ≤ 1023 := by decide

theorem witness_OverheadInvariantHolds : (2 : Nat) ≤ 2 ∧ Token.run .ffRun 4 ∈ compress (rep [0xFF#8] 4) := by decide

theorem witness_ByteCountIsExactBelowOverflow : DecRegs.reset.ocnt = 0 ∧ DecRegs.reset.ovf = false := by decide

theorem witness_DecodeInvertsEncode : [0x41#8].length ≤ 2 ^ 48 - 1 := by decide

theorem witness_CodePointsStayInRange : ∃ c, encodeCall [0x41#8] = some c := ⟨_, rfl⟩

theorem witness_EncodedLengthBounds : ∃ c, encodeCall (rep [0x00#8] 4) = some c := ⟨_, rfl⟩

/-- A run-free buffer; then every clause at the ends of its range, with the lengths of R255: 4 bytes 0x00 or 0xFF, 4 and 7
bytes of another value (no run qualifies), 8 and 9 bytes of it (a run does). -/
theorem witness_CompressionIsMonotone :
    (∀ i < [0x41#8, 0x42#8].length, zcount [0x41#8, 0x42#8] i < 4 ∧ fcount [0x41#8, 0x42#8] i < 4 ∧
      pcount [0x41#8, 0x42#8] i < 4) ∧ 0x41#8 ≠ 0x00#8 ∧ 0x41#8 ≠ 0xFF#8 ∧ (9 : Nat) < 2 ^ 48 ∧
    (encodeCall (rep [0x00#8] 4)).map List.length = some 5 ∧ (encodeCall (rep [0xFF#8] 4)).map List.length = some 5 ∧
    (encodeCall (rep [0x41#8] 4)).map List.length = some 8 ∧ (encodeCall (rep [0x41#8] 7)).map List.length = some 11 ∧
    (encodeCall (rep [0x41#8] 8)).map List.length = some 7 ∧ (encodeCall (rep [0x41#8] 9)).map List.length = some 8 := by
  decide

/-- One document for each phase that can fail, and one that succeeds. -/
theorem witness_EarliestPhaseFails :
    (∃ x ∈ [0xE000#21, 0x000A#21], ¬(0xE000 ≤ x.toNat ∧ x.toNat ≤ 0xEFFF)) ∧
    fromCodePoints [0xE000#21] = .ok [0x000#12] ∧
    readHeader [0x000#12, 0x000#12, 0x000#12, 0x001#12, 0x141#12] = .ok (1#48, [0x141#12]) ∧
    unpack [0x141#12] = .error .malformedBody ∧
    readHeader [0x000#12, 0x000#12, 0x000#12, 0x001#12, 0x041#12] = .ok (1#48, [0x041#12]) ∧
    unpack [0x041#12] = .ok [.literal 0x41#8] :=
  ⟨⟨0x000A#21, by simp, by simp⟩, by decide⟩

theorem witness_HeaderCorruptionIsDetected :
    encodeCall [] = some (List.replicate 4 0xE000#16) ∧ 3 < (List.replicate 4 0xE000#16).length ∧
    ((List.replicate 4 0xE000#16).map carry)[3]? ≠ some 0xE001#21 ∧
    ((List.replicate 4 0xE000#16).map carry)[3]? ≠ some 0x000A#21 := by decide

theorem witness_BodyCorruptionIsDetected :
    pack (compress [0x41#8, 0x00#8]) = [0x041#12] ++ 0x000#12 :: [] ∧ 0x000#12 ≠ 0x401#12 ∧
    aliasing 0x000#12 0x401#12 = true ∧ unpack [0x041#12] = .ok [.literal 0x41#8] := by decide

theorem witness_HeaderSymbolsLoadHdr : 4 ≤ (decAt .header 0 (docP2.take 4)).dec.m.toNat := by decide

theorem witness_HeaderSymbolsTrapWhenShort :
    (decAt .header 0 (docP2.take 3)).dec.m.toNat < 4 ∧ Instr.hdr1 5#12 ∈ [Instr.hdr3 5#12, .hdr2 5#12, .hdr1 5#12, .hdr0 5#12] := by
  decide

theorem symbolAt_docP2_4 : SymbolAt (decAt .unpack 4 docP2) 4 0xC05#12 := ⟨_, rfl, rfl⟩
theorem symbolAt_docP2_5 : SymbolAt (decAt .unpack 4 docP2) 5 0x041#12 := ⟨_, rfl, rfl⟩
theorem symbolAt_docP2_6 : SymbolAt (decAt .unpack 4 docP2) 6 0x042#12 := ⟨_, rfl, rfl⟩
theorem decRuns_decAt (p : DecPhase) (scur : Nat) (c : List CPIn) : DecRuns (decAt p scur c) := ⟨rfl, rfl, rfl⟩

/-- The last PAT symbol is the last of the document. -/
theorem witness_PatternRunLoadsThePair :
    (decAt .unpack 4 docP2).dec.scur.toNat + 2 < (decAt .unpack 4 docP2).dec.m.toNat ∧
    SymbolAt (decAt .unpack 4 docP2) 5 0x041#12 ∧ SymbolAt (decAt .unpack 4 docP2) 6 0x042#12 ∧
    (0x041#12 : Sym).extractLsb' 8 4 = 0#4 ∧ (0x042#12 : Sym).extractLsb' 8 4 = 0#4 :=
  ⟨by decide, symbolAt_docP2_5, symbolAt_docP2_6, by decide, by decide⟩

/-- Cut short by one symbol, and whole with a reserved PAT1. -/
theorem witness_PatternRunTrapsWhenCutOrReserved :
    (decAt .unpack 4 (docP2.take 6)).dec.m.toNat ≤ (decAt .unpack 4 (docP2.take 6)).dec.scur.toNat + 2 ∧
    SymbolAt (decAt .unpack 4 (docP2.take 6 ++ [0xE414#21])) 5 0x041#12 ∧
    SymbolAt (decAt .unpack 4 (docP2.take 6 ++ [0xE414#21])) 6 0x414#12 ∧ (0x414#12 : Sym).extractLsb' 8 4 ≠ 0#4 :=
  ⟨by decide, ⟨_, rfl, rfl⟩, ⟨_, rfl, rfl⟩, by decide⟩

theorem witness_ReservedLiteralsRaiseMalformedBody :
    (0x100#12 : Sym).extractLsb' 10 2 = 0b00#2 ∧ (0x100#12 : Sym).extractLsb' 8 2 ≠ 0b00#2 := by decide

theorem witness_StepRunsTheDecodedToken :
    DecRuns (decAt .unpack 4 docP2) ∧ (decAt .unpack 4 docP2).dec.scur < (decAt .unpack 4 docP2).dec.m ∧
    SymbolAt (decAt .unpack 4 docP2) 4 0xC05#12 ∧ decodeSym .token 0xC05#12 = .ok (.prun 5#10) :=
  ⟨decRuns_decAt .., by decide, symbolAt_docP2_4, by decide⟩

theorem witness_StepReadsTheHeader :
    DecRuns (decAt .header 0 docP2) ∧ 4 ≤ (decAt .header 0 docP2).dec.m.toNat ∧
    SymbolAt (decAt .header 0 docP2) 0 0x000#12 ∧ SymbolAt (decAt .header 0 docP2) 1 0x000#12 ∧
    SymbolAt (decAt .header 0 docP2) 2 0x000#12 ∧ SymbolAt (decAt .header 0 docP2) 3 0x014#12 :=
  ⟨decRuns_decAt .., by decide, ⟨_, rfl, rfl⟩, ⟨_, rfl, rfl⟩, ⟨_, rfl, rfl⟩, ⟨_, rfl, rfl⟩⟩

/-- A ZRUN of length 0 and an FRUN of the greatest length. -/
theorem witness_ByteRunsExpand :
    DecRuns (decAt .unpack 0 [0xE400#21]) ∧ SymbolAt (decAt .unpack 0 [0xE400#21]) 0 0x400#12 ∧
    decodeSym .token 0x400#12 = .ok (.zrun 0#10) ∧
    DecRuns (decAt .unpack 0 [0xEBFF#21]) ∧ SymbolAt (decAt .unpack 0 [0xEBFF#21]) 0 0xBFF#12 ∧
    decodeSym .token 0xBFF#12 = .ok (.frun 1023#10) :=
  ⟨decRuns_decAt .., ⟨_, rfl, rfl⟩, by decide, decRuns_decAt .., ⟨_, rfl, rfl⟩, by decide⟩

theorem witness_PatternRunsExpand :
    DecRuns (decAt .unpack 4 docP2) ∧
    (decAt .unpack 4 docP2).dec.scur.toNat + 2 < (decAt .unpack 4 docP2).dec.m.toNat ∧
    SymbolAt (decAt .unpack 4 docP2) 4 0xC05#12 ∧ SymbolAt (decAt .unpack 4 docP2) 5 0x041#12 ∧
    SymbolAt (decAt .unpack 4 docP2) 6 0x042#12 ∧ decodeSym .token 0xC05#12 = .ok (.prun 5#10) ∧
    decodeSym .pat0 0x041#12 = .ok (.pat0 0x41#8) ∧ decodeSym .pat1 0x042#12 = .ok (.pat1 0x42#8) :=
  ⟨decRuns_decAt .., by decide, symbolAt_docP2_4, symbolAt_docP2_5, symbolAt_docP2_6, by decide, by decide, by decide⟩

/-- ENC in the midst of a run of 1024 zero bytes. -/
def encInRun : State :=
  { encAt .body [] with enc := { EncRegs.reset with phase := .body, rkind := 1, rlen := 1024 } }

theorem witness_EncoderEmitsByteRunPieces :
    EncRuns encInRun ∧ encInRun.enc.phase = .body ∧ encInRun.enc.psub = 0 ∧ encInRun.enc.rkind = 1#2 ∧
    encInRun.enc.rlen ≠ 0 :=
  ⟨⟨rfl, rfl, rfl⟩, by decide⟩

theorem witness_BusyStepOnlyAppends : (decAt .unpack 4 docP2).callState = .busy ∧
    ∃ t, step (decAt .unpack 4 docP2) = .next t :=
  ⟨rfl, _, rfl⟩

/-- Into BUSY by START, and back to IDLE by reset. -/
theorem witness_StateTransitionsAreTheListed :
    (∃ t, step (hostAt 1 (.writeReg .ctrl 3#64)) = .next t ∧ (hostAt 1 (.writeReg .ctrl 3#64)).callState ≠ .busy ∧
      t.callState = .busy) ∧
    (∃ t, step { hostAt 1 .reset with callState := .done } = .next t ∧ t.callState = .idle) :=
  ⟨⟨_, rfl, by decide, rfl⟩, ⟨_, rfl, rfl⟩⟩

theorem witness_FailureEntryIsPrecise :
    ∃ t, step (decAt .header 0 (docP2.take 3)) = .next t ∧ t.callState = .failed ∧
      (decAt .header 0 (docP2.take 3)).callState = .busy :=
  ⟨_, rfl, rfl, rfl⟩

/-- The invariant of an encode call, at its start. -/
theorem inv_encAt : Inv (encAt .header [0x41#8]) where
  memory := by decide
  output := fun c h => nomatch h
  noError := fun _ => rfl
  error := fun h => nomatch h
  noLength := fun _ => rfl
  outLength := fun h => nomatch h
  encoding := fun _ _ =>
    { length := by decide, cursor := by decide, running := by decide, header := by decide, sub := by decide
      kind := by decide, count := by decide, budget := by decide, noBytes := by decide }
  decoding := fun _ h => absurd h (by decide)

/-- The invariant of a decode call, in the midst of UNPACK. -/
theorem inv_decAt : Inv (decAt .unpack 4 docP2) where
  memory := by decide
  output := fun c h => nomatch h
  noError := fun _ => rfl
  error := fun h => nomatch h
  noLength := fun _ => rfl
  outLength := fun h => nomatch h
  encoding := fun _ h => absurd h (by decide)
  decoding := fun _ _ =>
    { length := by decide, cursor := by decide, running := by decide, early := by decide
      passed := fun j (hj : j < 7) => by
        interval_cases j <;> exact ⟨_, _, rfl, rfl⟩
      mapped := by decide, kind := by decide, count := by decide
      overflow := by simp [decAt, State.reset, DecRegs.reset, Memory.reset], noCodePoints := by decide }

theorem witness_CursorsNeverGoBack :
    Inv (decAt .unpack 4 docP2) ∧ (decAt .unpack 4 docP2).callState = .busy ∧ ∃ t, step (decAt .unpack 4 docP2) = .next t :=
  ⟨inv_decAt, rfl, _, rfl⟩

theorem witness_StepKeepsInv :
    (Inv (decAt .unpack 4 docP2) ∧ ∃ t, step (decAt .unpack 4 docP2) = .next t) ∧
    (Inv (encAt .header [0x41#8]) ∧ ∃ t, step (encAt .header [0x41#8]) = .next t) :=
  ⟨⟨inv_decAt, _, rfl⟩, inv_encAt, _, rfl⟩

theorem witness_BusyEngineAlwaysHasAStep :
    Inv (decAt .unpack 4 docP2) ∧ Inv (encAt .header [0x41#8]) ∧ (encAt .header [0x41#8]).callState = .busy :=
  ⟨inv_decAt, inv_encAt, rfl⟩

/-- A host ready to encode one byte. -/
def readyEnc : State :=
  { hostAt 0 (.writeReg .ctrl 2#64) with inLen := 1, mem := { Memory.reset with ib := placed [0x41#8] } }

theorem witness_EncodeCallComputesEncode : ReadyToEncode readyEnc [0x41#8] :=
  ⟨by decide, rfl, by decide, by decide, by decide, _, rfl, by decide, by decide⟩

/-- A host ready to decode P2's first symbols. -/
def readyDec : State :=
  { hostAt 1 (.writeReg .ctrl 3#64) with inLen := 7, mem := { Memory.reset with ic := placed docP2 } }

theorem witness_DecodeCallComputesDecode : ReadyToDecode readyDec docP2 :=
  ⟨by decide, rfl, by decide, by decide, _, rfl, by decide, by decide⟩

/-- The same call after a failed one, with other bytes in `IB` and one more element in `IC`. -/
def readyDec' : State :=
  { readyDec with
    errCode := 3, callState := .failed, enc := { EncRegs.reset with p0 := 7 }
    mem := { readyDec.mem with ib := placed [0x41#8], ic := placed (docP2 ++ [0xE000#21]) } }

theorem witness_CallsAreIndependent :
    readyDec.mem.wf ∧ readyDec'.mem.wf ∧ readyDec.callState ≠ .busy ∧ readyDec'.callState ≠ .busy ∧
    readyDec.mode = readyDec'.mode ∧ readyDec.inLen = readyDec'.inLen ∧ readyDec.mode = 1#1 ∧ ctrlModeBit 3#64 = 1#1 ∧
    (∀ j < readyDec.inLen.toNat, readyDec.readIC j = readyDec'.readIC j) ∧
    readyDec.pending = [.writeReg .ctrl 3#64] ∧ readyDec'.pending = [.writeReg .ctrl 3#64] ∧ ctrlStartBit 3#64 = true ∧
    readyDec ≠ readyDec' := by decide

theorem witness_NoEngineStepOutsideACall : State.reset.callState ≠ .busy ∧ State.reset.pending = [] := by decide

/-- A START in each mode. -/
theorem witness_StartBeginsACall :
    (readyEnc.callState ≠ .busy ∧ readyEnc.pending = .writeReg .ctrl 2#64 :: [] ∧ ctrlStartBit 2#64 = true ∧
      ctrlModeBit 2#64 = readyEnc.mode ∧ readyEnc.inLen.toNat < 2 ^ 48) ∧
    (readyDec.callState ≠ .busy ∧ readyDec.pending = .writeReg .ctrl 3#64 :: [] ∧ ctrlStartBit 3#64 = true ∧
      ctrlModeBit 3#64 = readyDec.mode ∧ readyDec.mode = 1#1) := by decide

/-- The least length that is too long. -/
theorem witness_OverlongEncodeIsRefused :
    2 ^ 48 ≤ ({ readyEnc with inLen := 0x1000000000000#49 } : State).inLen.toNat ∧ readyEnc.mode = 0#1 ∧
    ctrlModeBit 2#64 = 0#1 ∧ ctrlStartBit 2#64 = true := by decide

theorem witness_RegisterWritesTakeTheirFields :
    ({ decAt .map 0 docP2 with pending := [.writeReg .ctrl 2#64] } : State).callState = .busy ∧
    (hostAt 0 (.writeReg .inLen 5#64)).callState ≠ .busy ∧ (hostAt 0 (.writeReg .ctrl 1#64)).callState ≠ .busy ∧
    (1#64 : RegWord).getLsbD 1 = false ∧ HostReg.err ∈ [HostReg.status, .err, .outLen] := by decide

theorem witness_PlacedElementsReadBack :
    (hostAt 0 (.writeIB 0 0x41#8)).callState ≠ .busy ∧ (hostAt 0 (.writeIC 0 0xE000#21)).callState ≠ .busy := by decide

theorem witness_ResultsReadBack :
    ({ hostAt 0 (.readOC 0) with callState := .done, mem := { Memory.reset with oc := [0xE000#16] } } : State).mem.oc[0]? =
      some 0xE000#16 ∧
    ({ hostAt 0 (.readOB 0) with callState := .done, mem := { Memory.reset with ob := [0x41#8] } } : State).mem.ob[0]? =
      some 0x41#8 := by decide

theorem witness_ResetReturnsToIdle :
    ({ hostAt 1 .reset with callState := .failed } : State).callState ≠ .busy ∧
    ({ hostAt 1 .reset with callState := .failed } : State).pending = .reset :: [] := by decide

theorem witness_RegisterReadsDeliver :
    (hostAt 0 (.readReg .status)).pending = .readReg .status :: [] ∧
    ({ hostAt 0 .waitDone with callState := .done } : State).pending = .waitDone :: [] ∧
    ({ hostAt 0 .waitDone with callState := .done } : State).callState = .done := by decide

end Sys2Proof.Tests
end

/-! SUPPORT. What one step can do, said once (`EncMove`, `DecMove`, `HostMove`, `Move`), and what follows from it: the
invariant of SSCORE, the transitions of `STATUS.STATE`, the cursors; and the register interface (10_state.md). -/

namespace Sys2Proof.Machine

/-! ### The Compressor's choice at a position (R135) -/

theorem leadingPairs_le (p0 p1 : Byte) (l : List Byte) : 2 * leadingPairs p0 p1 l ≤ l.length := by
  induction l using leadingPairs.induct p0 p1 with
  | case1 x y rest h ih => simp only [leadingPairs, h, and_self, if_true, List.length_cons]; omega
  | case2 x y rest h => simp [leadingPairs, h]
  | case3 l h => unfold leadingPairs; split <;> simp_all

theorem pcount_le (b : List Byte) (i : Nat) : 2 * pcount b i ≤ b.length - i := by
  have hlen : (b.drop i).length = b.length - i := List.length_drop
  unfold pcount
  split
  · rename_i p0 p1 rest hd
    rw [← hlen, hd]
    exact leadingPairs_le p0 p1 _
  · omega

/-- A token stands inside the buffer. -/
theorem nextToken_byteLen_le {b : List Byte} {i : Nat} {t : Token} (h : nextToken b i = some t) :
    i + t.byteLen ≤ b.length := by
  have hz := zcount_le b i
  have hf := fcount_le b i
  have hp := pcount_le b i
  unfold nextToken at h
  split at h
  · cases h
  · rename_i p0 rest hd
    have hi : i < b.length := by
      by_contra hge
      simp [List.drop_eq_nil_of_le (Nat.le_of_not_lt hge)] at hd
    split_ifs at h <;> cases h <;> simp only [Token.byteLen] <;> omega

/-- R136 to R138: only runs of at least the threshold are taken. -/
theorem nextToken_run_length {b : List Byte} {i : Nat} {k : Kind} {len : Nat}
    (h : nextToken b i = some (.run k len)) : 4 ≤ len := by
  unfold nextToken at h
  split at h
  · cases h
  · split_ifs at h with hz hf hp <;> cases h
    · exact hz
    · exact hf
    · exact hp

/-- R144: no run the Compressor takes costs more symbols than it covers bytes. -/
theorem run_cost_le_byteLen (k : Kind) {len : Nat} (h : 4 ≤ len) :
    (Token.run k len).cost ≤ (Token.run k len).byteLen := by
  cases k <;> simp only [Token.cost, Token.byteLen, pieces] <;> omega

/-! ### One step of ENC (R257) -/

/-- The tag value of a run's kind (R92, R36). -/
def Kind.tag : Kind → BitVec 2
  | .zeroRun => 1#2
  | .ffRun => 2#2
  | .patternRun _ _ => 3#2

/-- C.ZERO, C.FF, C.PAT of R257: ENC's registers after E.SCAN has taken a run. -/
def EncRegs.loadRun (e : EncRegs) : Kind → Nat → EncRegs
  | .zeroRun, z => { e with rkind := 1, rlen := BitVec.ofNat 48 z, cur := e.cur + BitVec.ofNat 48 z }
  | .ffRun, f => { e with rkind := 2, rlen := BitVec.ofNat 48 f, cur := e.cur + BitVec.ofNat 48 f }
  | .patternRun p0 p1, r =>
    { e with rkind := 3, p0 := p0, p1 := p1, rlen := BitVec.ofNat 48 r, cur := e.cur + BitVec.ofNat 48 (2 * r) }

section
variable (e : EncRegs) (k : Kind) (len : Nat)

@[simp] theorem EncRegs.loadRun_n : (e.loadRun k len).n = e.n := by cases k <;> rfl
@[simp] theorem EncRegs.loadRun_phase : (e.loadRun k len).phase = e.phase := by cases k <;> rfl
@[simp] theorem EncRegs.loadRun_psub : (e.loadRun k len).psub = e.psub := by cases k <;> rfl
@[simp] theorem EncRegs.loadRun_ocnt : (e.loadRun k len).ocnt = e.ocnt := by cases k <;> rfl
@[simp] theorem EncRegs.loadRun_rkind : (e.loadRun k len).rkind = k.tag := by cases k <;> rfl
@[simp] theorem EncRegs.loadRun_rlen : (e.loadRun k len).rlen = BitVec.ofNat 48 len := by cases k <;> rfl
@[simp] theorem EncRegs.loadRun_cur :
    (e.loadRun k len).cur = e.cur + BitVec.ofNat 48 (Token.run k len).byteLen := by cases k <;> rfl

theorem Kind.tag_ne_zero : k.tag ≠ 0#2 := by cases k <;> simp [Kind.tag]

end

/-- ENC's registers after E.RUN has emitted a piece of `piece` units. -/
def EncRegs.takePiece (e : EncRegs) (piece : Nat) : EncRegs :=
  { e with
    ocnt := e.ocnt + 1
    rlen := e.rlen - BitVec.ofNat 48 piece
    psub := if e.rkind = 3#2 then 1 else e.psub }

@[simp] theorem EncRegs.takePiece_rkind (e : EncRegs) (n : Nat) : (e.takePiece n).rkind = e.rkind := rfl
@[simp] theorem EncRegs.takePiece_psub (e : EncRegs) (n : Nat) :
    (e.takePiece n).psub = if e.rkind = 3#2 then 1 else e.psub := rfl

/-- ENC's registers after E.HDR has emitted a header symbol. -/
def EncRegs.nextHeader (e : EncRegs) : EncRegs :=
  { e with ocnt := e.ocnt + 1, hcnt := e.hcnt + 1, phase := if e.hcnt + 1 = 4#3 then .body else .header }

/-- The steps of R257, each with its guard and the state it leads to. -/
inductive EncMove (s : State) : State → Prop where
  /-- E.HDR -/
  | hdr (w : Sym) (phase : s.enc.phase = .header) (symbol : (writeHeader s.enc.n)[s.enc.hcnt.toNat]? = some w) :
    EncMove s ((s.emitSymbol w).setEnc s.enc.nextHeader)
  /-- E.SCAN, C.LIT -/
  | literal (b : List Byte) (x : Byte) (phase : s.enc.phase = .body) (psub : s.enc.psub = 0) (rlen : s.enc.rlen = 0)
    (cur : s.enc.cur < s.enc.n) (input : s.inputBytes s.enc.n.toNat = some b)
    (token : nextToken b s.enc.cur.toNat = some (.literal x)) :
    EncMove s ((s.emitSymbol (encodeSym (.lit x))).setEnc { s.enc with
      ocnt := s.enc.ocnt + 1
      cur := s.enc.cur + 1 })
  /-- E.SCAN, C.ZERO, C.FF and C.PAT -/
  | run (b : List Byte) (k : Kind) (len : Nat) (phase : s.enc.phase = .body) (psub : s.enc.psub = 0)
    (rlen : s.enc.rlen = 0) (cur : s.enc.cur < s.enc.n) (input : s.inputBytes s.enc.n.toNat = some b)
    (token : nextToken b s.enc.cur.toNat = some (.run k len)) :
    EncMove s (s.setEnc (s.enc.loadRun k len))
  /-- E.RUN -/
  | piece (phase : s.enc.phase = .body) (psub : s.enc.psub = 0) (rlen : s.enc.rlen ≠ 0) :
    EncMove s ((s.emitSymbol
      (s.enc.rkind ++ BitVec.ofNat 10 (min s.enc.rlen.toNat Config.maxLen) : BitVec (2 + 10))).setEnc
        (s.enc.takePiece (min s.enc.rlen.toNat Config.maxLen)))
  /-- E.PAT0 -/
  | pat0 (phase : s.enc.phase = .body) (psub : s.enc.psub = 1) :
    EncMove s ((s.emitSymbol (encodeSym (.pat0 s.enc.p0))).setEnc { s.enc with ocnt := s.enc.ocnt + 1, psub := 2 })
  /-- E.PAT1 -/
  | pat1 (phase : s.enc.phase = .body) (psub : s.enc.psub = 2) :
    EncMove s ((s.emitSymbol (encodeSym (.pat1 s.enc.p1))).setEnc { s.enc with ocnt := s.enc.ocnt + 1, psub := 0 })
  /-- E.END -/
  | finish (phase : s.enc.phase = .body) (psub : s.enc.psub = 0) (rlen : s.enc.rlen = 0) (cur : s.enc.cur = s.enc.n) :
    EncMove s s.finishEnc

theorem encMove_of_encHdr {s t : State} (hp : s.enc.phase = .header) (h : encHdr s = .next t) : EncMove s t := by
  unfold encHdr at h
  split at h
  · cases h
  · cases h; exact .hdr _ hp ‹_›

theorem encMove_of_encScan {s t : State} (hp : s.enc.phase = .body) (hs : s.enc.psub = 0) (hr : s.enc.rlen = 0)
    (hc : s.enc.cur < s.enc.n) (h : encScan s = .next t) : EncMove s t := by
  unfold encScan at h
  split at h
  · cases h
  · rename_i b hb
    split at h <;> cases h
    · exact .literal b _ hp hs hr hc hb ‹_›
    · exact .run b .zeroRun _ hp hs hr hc hb ‹_›
    · exact .run b .ffRun _ hp hs hr hc hb ‹_›
    · exact .run b (.patternRun _ _) _ hp hs hr hc hb ‹_›

/-- Whatever ENC's step answers is one of the steps of R257. -/
theorem encMove_of_encStep {s t : State} (h : encStep s = .next t) : EncMove s t := by
  unfold encStep at h
  split at h
  · exact encMove_of_encHdr ‹_› h
  · rename_i hp
    split_ifs at h with hs hr hc hn h1 h2
    · cases h; exact .piece hp hs hr
    · exact encMove_of_encScan hp hs (not_not.1 hr) hc h
    · cases h; exact .finish hp hs (not_not.1 hr) hn
    · cases h; exact .pat0 hp h1
    · cases h; exact .pat1 hp h2
  · cases h


/-! ### The registers of ENC stay in their ranges -/

theorem EncRegs.owed_eq_zero {e : EncRegs} (hr : e.rlen = 0) (hs : e.psub = 0) : e.owed = 0 := by
  simp [EncRegs.owed, hr, hs]

/-- R188: a run just taken owes its packed cost. -/
theorem EncRegs.owed_loadRun {e : EncRegs} (k : Kind) {len : Nat} (hs : e.psub = 0) (h1 : 4 ≤ len)
    (h2 : len < 2 ^ 48) : (e.loadRun k len).owed = (Token.run k len).cost := by
  cases k <;> simp [EncRegs.owed, hs, Kind.tag, Token.cost, pieces] <;> omega

/-- E.RUN emits one of the symbols owed. -/
theorem EncRegs.owed_takePiece {e : EncRegs} (hs : e.psub = 0) (hr : e.rlen ≠ 0) :
    (e.takePiece (min e.rlen.toNat Config.maxLen)).owed + 1 = e.owed := by
  have hpos : 0 < e.rlen.toNat := Nat.pos_of_ne_zero fun h => hr (BitVec.eq_of_toNat_eq h)
  have hlt := e.rlen.isLt
  have hrlen : (e.takePiece (min e.rlen.toNat Config.maxLen)).rlen.toNat = e.rlen.toNat - min e.rlen.toNat 1023 := by
    simp only [EncRegs.takePiece, Config.maxLen, BitVec.toNat_sub, BitVec.toNat_ofNat]
    omega
  by_cases hk : e.rkind = 3#2
  · simp [EncRegs.owed, hrlen, hs, hk]
    omega
  · simp [EncRegs.owed, hrlen, hs, hk]
    omega

/-- The registers after a token has been taken at `CUR`: the cursor goes on by the token's bytes, without overflow. -/
theorem cur_add_byteLen {s : State} {b : List Byte} {t : Token} (hb : s.inputBytes s.enc.n.toNat = some b)
    (ht : nextToken b s.enc.cur.toNat = some t) :
    (s.enc.cur + BitVec.ofNat 48 t.byteLen).toNat = s.enc.cur.toNat + t.byteLen ∧
      s.enc.cur + BitVec.ofNat 48 t.byteLen ≤ s.enc.n := by
  have hfit := nextToken_byteLen_le ht
  rw [inputBytes_length hb] at hfit
  have hn := s.enc.n.isLt
  have hsum : (s.enc.cur + BitVec.ofNat 48 t.byteLen).toNat = s.enc.cur.toNat + t.byteLen := by
    rw [BitVec.toNat_add, BitVec.toNat_ofNat, Nat.add_mod_mod, Nat.mod_eq_of_lt (by omega)]
  exact ⟨hsum, by rw [BitVec.le_def, hsum]; exact hfit⟩

theorem EncInv.oc_length_le {s : State} (h : EncInv s) : s.mem.oc.length ≤ s.enc.cur.toNat + 4 :=
  le_trans (Nat.le_add_right _ _) h.budget

/-- The count of code points cannot overflow (R7: a 49-bit count). -/
theorem EncInv.count_succ {s : State} (h : EncInv s) : (s.enc.ocnt + 1).toNat = s.mem.oc.length + 1 := by
  have hoc := h.oc_length_le
  have hcur := s.enc.cur.isLt
  have hcount := h.count
  bv_omega

/-- A step of phase BODY that emits one symbol and leaves `N` and the phase as they are keeps ENC's invariant when its
registers do. -/
theorem EncInv.emit {s : State} {w : Sym} {e : EncRegs} (h : EncInv s) (hn : e.n = s.enc.n)
    (hphase : e.phase = .body) (hocnt : e.ocnt = s.enc.ocnt + 1) (hcur : e.cur ≤ s.enc.n)
    (hsub : e.psub ≠ 3#2 ∧ (e.psub ≠ 0#2 → e.rkind = 3#2)) (hkind : e.rlen ≠ 0 → e.rkind ≠ 0#2)
    (hbudget : s.mem.oc.length + 1 + e.owed ≤ e.cur.toNat + 4) : EncInv ((s.emitSymbol w).setEnc e) where
  length := ⟨h.length.1, hn.trans h.length.2⟩
  cursor := by simpa [hn] using hcur
  running := by simp [hphase]
  header := by simp [hphase]
  sub := hsub
  kind := hkind
  count := by simpa [hocnt] using h.count_succ
  budget := by simpa using hbudget
  noBytes := h.noBytes

theorem EncInv.hdr {s : State} (h : EncInv s) (w : Sym) (hp : s.enc.phase = .header) :
    EncInv ((s.emitSymbol w).setEnc s.enc.nextHeader) := by
  obtain ⟨hlt, hoc, hcur, hrlen, hpsub⟩ := h.header hp
  have hsucc : (s.enc.hcnt + 1).toNat = s.enc.hcnt.toNat + 1 := by bv_omega
  have howed : s.enc.nextHeader.owed = 0 := EncRegs.owed_eq_zero hrlen hpsub
  exact {
    length := h.length
    cursor := h.cursor
    running := by simp only [State.setEnc_enc, EncRegs.nextHeader]; split <;> simp
    header := fun hp' => by
      have hne : s.enc.hcnt + 1 ≠ 4#3 := fun heq => by
        simp only [State.setEnc_enc, EncRegs.nextHeader, if_pos heq] at hp'
        cases hp'
      have hlt' : s.enc.hcnt.toNat + 1 < 4 := by bv_omega
      exact ⟨hsucc.trans_lt hlt', by simpa [EncRegs.nextHeader, hoc] using hsucc.symm, hcur, hrlen, hpsub⟩
    sub := h.sub
    kind := h.kind
    count := by simpa [EncRegs.nextHeader] using h.count_succ
    budget := by
      simp only [State.setEnc_enc, State.setEnc_mem, State.emitSymbol_mem, List.length_append, List.length_singleton,
        howed]
      omega
    noBytes := h.noBytes }

theorem EncInv.literal {s : State} {b : List Byte} {x : Byte} (h : EncInv s) (w : Sym) (hp : s.enc.phase = .body)
    (hs : s.enc.psub = 0) (hr : s.enc.rlen = 0) (hb : s.inputBytes s.enc.n.toNat = some b)
    (ht : nextToken b s.enc.cur.toNat = some (.literal x)) :
    EncInv ((s.emitSymbol w).setEnc { s.enc with ocnt := s.enc.ocnt + 1, cur := s.enc.cur + 1 }) := by
  obtain ⟨hsum, hle⟩ := cur_add_byteLen hb ht
  refine h.emit rfl hp rfl hle h.sub h.kind ?_
  have howed := EncRegs.owed_eq_zero (e := { s.enc with ocnt := s.enc.ocnt + 1, cur := s.enc.cur + 1 }) hr hs
  have hoc := h.oc_length_le
  have hsum' : (s.enc.cur + 1).toNat = s.enc.cur.toNat + 1 := hsum
  simp only [howed, hsum']
  omega

theorem EncInv.run {s : State} {b : List Byte} {k : Kind} {len : Nat} (h : EncInv s) (hp : s.enc.phase = .body)
    (hs : s.enc.psub = 0) (hb : s.inputBytes s.enc.n.toNat = some b)
    (ht : nextToken b s.enc.cur.toNat = some (.run k len)) : EncInv (s.setEnc (s.enc.loadRun k len)) := by
  obtain ⟨hsum, hle⟩ := cur_add_byteLen hb ht
  have hlen := nextToken_run_length ht
  have hcost := run_cost_le_byteLen k hlen
  have hlt : len < 2 ^ 48 := by
    have hbytes : len ≤ (Token.run k len).byteLen := by cases k <;> simp only [Token.byteLen] <;> omega
    have hsumlt := (s.enc.cur + BitVec.ofNat 48 (Token.run k len).byteLen).isLt
    omega
  exact {
    length := by simpa using h.length
    cursor := by simpa using hle
    running := by simp [hp]
    header := by simp [hp]
    sub := by simp [hs]
    kind := by simp [Kind.tag_ne_zero]
    count := by simpa using h.count
    budget := by
      have hoc := h.oc_length_le
      simp only [State.setEnc_enc, State.setEnc_mem, EncRegs.owed_loadRun k hs hlen hlt, EncRegs.loadRun_cur, hsum]
      omega
    noBytes := h.noBytes }

theorem EncInv.piece {s : State} (h : EncInv s) (w : Sym) (hp : s.enc.phase = .body) (hs : s.enc.psub = 0)
    (hr : s.enc.rlen ≠ 0) :
    EncInv ((s.emitSymbol w).setEnc (s.enc.takePiece (min s.enc.rlen.toNat Config.maxLen))) := by
  refine h.emit rfl hp rfl h.cursor ?_ (fun _ => h.kind hr) ?_
  · by_cases hk : s.enc.rkind = 3#2 <;> simp [EncRegs.takePiece, hk, hs]
  · have howed := EncRegs.owed_takePiece hs hr
    have hbudget := h.budget
    simp only [EncRegs.takePiece] at howed ⊢
    omega

theorem EncInv.pat0 {s : State} (h : EncInv s) (w : Sym) (hp : s.enc.phase = .body) (hs : s.enc.psub = 1) :
    EncInv ((s.emitSymbol w).setEnc { s.enc with ocnt := s.enc.ocnt + 1, psub := 2 }) := by
  have hk : s.enc.rkind = 3#2 := h.sub.2 (by simp [hs])
  refine h.emit rfl hp rfl h.cursor ⟨by simp, fun _ => hk⟩ h.kind ?_
  have hbudget := h.budget
  simp [EncRegs.owed, hs, hk] at hbudget ⊢
  omega

theorem EncInv.pat1 {s : State} (h : EncInv s) (w : Sym) (hp : s.enc.phase = .body) (hs : s.enc.psub = 2) :
    EncInv ((s.emitSymbol w).setEnc { s.enc with ocnt := s.enc.ocnt + 1, psub := 0 }) := by
  have hk : s.enc.rkind = 3#2 := h.sub.2 (by simp [hs])
  refine h.emit rfl hp rfl h.cursor ⟨by simp, fun _ => hk⟩ h.kind ?_
  have hbudget := h.budget
  simp [EncRegs.owed, hs, hk] at hbudget ⊢
  omega


/-! ### One step of DEC (R258) -/

/-- DEC's registers after D.HDR has read the four header symbols (R223). -/
def DecRegs.loadHeader (d : DecRegs) (w3 w2 w1 w0 : Sym) : DecRegs :=
  { d with hdr3 := w3, hdr2 := w2, hdr1 := w1, hdr0 := w0, scur := 4, phase := .unpack }

/-- DEC's registers after D.TOK has read a whole PRUN token (R195). -/
def DecRegs.loadPattern (d : DecRegs) (len : RunLen) (p0 p1 : Byte) : DecRegs :=
  { d with rkind := 3, rlen := len, p0 := p0, p1 := p1, psub := 0, scur := d.scur + 1 + 1 + 1, phase := .expand }

/-- The steps of R258, each with the phase and the bounds it is taken under and the state it leads to. Which symbols are
read is left out: no invariant turns on their values. -/
inductive DecMove (s : State) : State → Prop where
  /-- D.MAP past the last code point -/
  | mapEnd (phase : s.dec.phase = .map) (mcur : s.dec.mcur = s.dec.m) :
    DecMove s (s.setDec { s.dec with phase := .header })
  /-- D.MAP, one code point in range -/
  | mapOne (c : CPIn) (phase : s.dec.phase = .map) (mcur : s.dec.mcur ≠ s.dec.m)
    (read : s.readIC s.dec.mcur.toNat = some c) (range : inRange c = true) :
    DecMove s (s.setDec { s.dec with mcur := s.dec.mcur + 1 })
  /-- D.HDR -/
  | header (w3 w2 w1 w0 : Sym) (phase : s.dec.phase = .header) (long : 4 ≤ s.dec.m.toNat) :
    DecMove s (s.setDec (s.dec.loadHeader w3 w2 w1 w0))
  /-- D.TOK at a literal -/
  | lit (b : Byte) (phase : s.dec.phase = .unpack) (scur : s.dec.scur < s.dec.m) :
    DecMove s ((s.emitByte b).setDec { s.dec.count with scur := s.dec.scur + 1 })
  /-- D.TOK at a ZRUN or FRUN -/
  | byteRun (kind : BitVec 2) (len : RunLen) (phase : s.dec.phase = .unpack) (scur : s.dec.scur < s.dec.m)
    (tag : kind = 1#2 ∨ kind = 2#2) :
    DecMove s (s.setDec { s.dec.loadRun kind len with phase := .expand })
  /-- D.TOK at a PRUN -/
  | patternRun (len : RunLen) (p0 p1 : Byte) (phase : s.dec.phase = .unpack)
    (scur : s.dec.scur.toNat + 2 < s.dec.m.toNat) :
    DecMove s (s.setDec (s.dec.loadPattern len p0 p1))
  /-- D.EOB -/
  | bodyEnd (phase : s.dec.phase = .unpack) (scur : s.dec.scur = s.dec.m) :
    DecMove s (s.setDec { s.dec with phase := .verify })
  /-- D.EXP at the end of a run -/
  | runEnd (phase : s.dec.phase = .expand) (rlen : s.dec.rlen = 0) :
    DecMove s (s.setDec { s.dec with phase := .unpack })
  /-- D.EXP, one byte of a ZeroRun or FFRun -/
  | expandByte (b : Byte) (phase : s.dec.phase = .expand) (rlen : s.dec.rlen ≠ 0)
    (kind : s.dec.rkind = 1 ∧ b = 0x00#8 ∨ s.dec.rkind = 2 ∧ b = 0xFF#8) :
    DecMove s ((s.emitByte b).setDec { s.dec.count with rlen := s.dec.rlen - 1 })
  /-- D.EXP, the first byte of a pair -/
  | expandFirst (phase : s.dec.phase = .expand) (rlen : s.dec.rlen ≠ 0) (psub : s.dec.psub = 0) :
    DecMove s ((s.emitByte s.dec.p0).setDec { s.dec.count with psub := 1 })
  /-- D.EXP, the second byte of a pair -/
  | expandSecond (phase : s.dec.phase = .expand) (rlen : s.dec.rlen ≠ 0) (psub : s.dec.psub ≠ 0) :
    DecMove s ((s.emitByte s.dec.p1).setDec { s.dec.count with psub := 0, rlen := s.dec.rlen - 1 })
  /-- D.VER, the counts agree -/
  | verify (phase : s.dec.phase = .verify) (agree : s.dec.mismatch = false) : DecMove s s.finishDec
  /-- any step that raises a failure (R288) -/
  | fail (k : FailureKind) (kind : k ≠ .emptyInput) : DecMove s (s.failCall k)

/-- Reading a symbol, as a step: the failure of R190, or what comes after the read. -/
theorem decMove_of_withSymbol {s t : State} {j : Nat} {go : Sym → Result}
    (hgo : ∀ w, go w = .next t → DecMove s t) (h : withSymbol s j go = .next t) : DecMove s t := by
  rcases withSymbol_cases s j go with ⟨_, hw⟩ | ⟨_, _, _, hw⟩ | ⟨_, w, _, _, hw⟩
  · rw [hw] at h; cases h
  · rw [hw] at h; cases h; exact .fail _ (by simp)
  · exact hgo w (hw ▸ h)

theorem decMove_of_decMap {s t : State} (hp : s.dec.phase = .map) (h : decMap s = .next t) : DecMove s t := by
  unfold decMap at h
  split at h
  · cases h; exact .mapEnd hp ‹_›
  · split at h
    · cases h
    · split at h <;> cases h
      · exact .mapOne _ hp ‹_› ‹_› ‹_›
      · exact .fail _ (by simp)

/-- The four header instructions of a document of at least four symbols, run one after another (R223). -/
theorem exec_header {s : State} (w3 w2 w1 w0 : Sym) (h : 4 ≤ s.dec.m.toNat) :
    (andThen (exec (.hdr3 w3) s) fun s => andThen (exec (.hdr2 w2) s) fun s => andThen (exec (.hdr1 w1) s) fun s =>
      exec (.hdr0 w0) s) = .next (s.setDec (s.dec.loadHeader w3 w2 w1 w0)) := by
  have hm : ¬ s.dec.m.toNat < 4 := by omega
  simp [exec, execHdr3, execHdr2, execHdr1, execHdr0, headerSymbol, Config.headerSymbols, hm]
  rfl

theorem decMove_of_decHdr {s t : State} (hp : s.dec.phase = .header) (h : decHdr s = .next t) : DecMove s t := by
  unfold decHdr at h
  split at h
  · cases h; exact .fail _ (by simp)
  · rename_i hm
    refine decMove_of_withSymbol (fun w3 => decMove_of_withSymbol fun w2 => decMove_of_withSymbol fun w1 =>
      decMove_of_withSymbol fun w0 h => ?_) h
    have hlong : 4 ≤ s.dec.m.toNat := Nat.le_of_not_lt hm
    rw [exec_header w3 w2 w1 w0 hlong] at h
    cases h
    exact .header w3 w2 w1 w0 hp hlong

theorem decMove_of_execPrun {s t : State} {len : RunLen} (hp : s.dec.phase = .unpack) (h : execPrun len s = .next t) :
    DecMove s t := by
  unfold execPrun at h
  by_cases hcut : s.dec.m.toNat ≤ s.dec.scur.toNat + 2
  · rw [withPattern_cut _ hcut] at h; cases h; exact .fail _ (by simp)
  · rcases withPattern_next h with rfl | rfl | ⟨p0, p1, hgo⟩
    · exact .fail _ (by simp)
    · exact .fail _ (by simp)
    · cases hgo; exact .patternRun len p0 p1 hp (Nat.lt_of_not_le hcut)

/-- D.TOK's instruction, by its tag (R191). -/
theorem decMove_of_exec_token {s t : State} {w : Sym} (hp : s.dec.phase = .unpack) (hc : s.dec.scur < s.dec.m)
    (h : exec (decodeToken w) s = .next t) : DecMove s t := by
  unfold decodeToken at h
  split_ifs at h
  · cases h; exact .byteRun 1#2 _ hp hc (.inl rfl)
  · cases h; exact .byteRun 2#2 _ hp hc (.inr rfl)
  · exact decMove_of_execPrun hp h
  · cases h; exact .fail _ (by simp)
  · cases h; exact .fail _ (by simp)
  · cases h; exact .fail _ (by simp)
  · cases h; exact .lit _ hp hc

theorem decMove_of_decTok {s t : State} (hp : s.dec.phase = .unpack) (hc : s.dec.scur < s.dec.m)
    (h : decTok s = .next t) : DecMove s t :=
  decMove_of_withSymbol (fun _ => decMove_of_exec_token hp hc) h

theorem decMove_of_decExp {s t : State} (hp : s.dec.phase = .expand) (h : decExp s = .next t) : DecMove s t := by
  unfold decExp at h
  split_ifs at h with hr h1 h2 hs <;> cases h
  · exact .runEnd hp hr
  · exact .expandByte _ hp hr (.inl ⟨h1, rfl⟩)
  · exact .expandByte _ hp hr (.inr ⟨h2, rfl⟩)
  · exact .expandFirst hp hr hs
  · exact .expandSecond hp hr hs

theorem decMove_of_decVer {s t : State} (hp : s.dec.phase = .verify) (h : decVer s = .next t) : DecMove s t := by
  unfold decVer at h
  split_ifs at h with hm <;> cases h
  · exact .fail _ (by simp)
  · exact .verify hp (by simpa using hm)

/-- Whatever DEC's step answers is one of the steps of R258. -/
theorem decMove_of_decStep {s t : State} (h : decStep s = .next t) : DecMove s t := by
  unfold decStep at h
  split at h
  · exact decMove_of_decMap ‹_› h
  · exact decMove_of_decHdr ‹_› h
  · rename_i hp
    split_ifs at h with hlt heq
    · exact decMove_of_decTok hp hlt h
    · cases h; exact .bodyEnd hp heq
  · exact decMove_of_decExp ‹_› h
  · exact decMove_of_decVer ‹_› h
  · cases h

/-! ### The registers of DEC stay in their ranges -/

/-- What DEC's invariant says of `MCUR`, `SCUR`, `PHASE` and `RKIND`, apart from the buffers. -/
structure DecRegs.InRange (d : DecRegs) : Prop where
  cursor : d.mcur ≤ d.m ∧ d.scur ≤ d.m
  running : d.phase ≠ .ended
  early : d.phase = .map ∨ d.phase = .header → d.scur = 0
  mapped : d.phase ≠ .map → d.mcur = d.m
  kind : d.phase = .expand → d.rkind ≠ 0#2

/-- After phase MAP only `SCUR`, the phase and the kind of run can leave their ranges. -/
theorem DecInv.mapped_inRange {s : State} {d : DecRegs} (h : DecInv s) (hp : s.dec.phase ≠ .map)
    (hm : d.m = s.dec.m) (hmcur : d.mcur = s.dec.mcur) (hscur : d.scur ≤ s.dec.m)
    (hphase : d.phase = .unpack ∨ d.phase = .expand ∨ d.phase = .verify)
    (hkind : d.phase = .expand → d.rkind ≠ 0#2) : d.InRange where
  cursor := by rw [hm, hmcur]; exact ⟨h.cursor.1, hscur⟩
  running := by rcases hphase with hp | hp | hp <;> simp [hp]
  early := by rcases hphase with hp | hp | hp <;> simp [hp]
  mapped := fun _ => by rw [hm, hmcur, h.mapped hp]
  kind := hkind

/-- A step that writes registers only, the code points passed and the count unchanged. -/
theorem DecInv.setDec {s : State} {d : DecRegs} (h : DecInv s) (hd : d.InRange) (hm : d.m = s.dec.m)
    (hpassed : ∀ j, j < d.mcur.toNat → ∃ w, SymbolAt s j w) (hocnt : d.ocnt = s.dec.ocnt)
    (hovf : d.ovf = s.dec.ovf) : DecInv (s.setDec d) where
  length := hm.trans h.length
  cursor := hd.cursor
  running := hd.running
  early := hd.early
  passed := hpassed
  mapped := hd.mapped
  kind := hd.kind
  count := by simpa [hocnt] using h.count
  overflow := by simpa [hovf] using h.overflow
  noCodePoints := h.noCodePoints

/-- R170: the count goes on with the bytes appended, modulo 2^48. -/
theorem DecInv.count_succ {s : State} (h : DecInv s) :
    (s.dec.ocnt + 1).toNat = (s.mem.ob.length + 1) % 2 ^ 48 := by
  have hcount := h.count
  rw [BitVec.toNat_add, hcount]
  exact Nat.mod_add_mod _ _ _

/-- R170: `OVF` is set by the byte that takes the count beyond 2^48 - 1, and stays set. -/
theorem DecInv.overflow_succ {s : State} (h : DecInv s) :
    (s.dec.ovf || decide (s.dec.ocnt = 0xFFFFFFFFFFFF#48)) = true ↔ 2 ^ 48 ≤ s.mem.ob.length + 1 := by
  have hcount := h.count
  have hlast : s.dec.ocnt = 0xFFFFFFFFFFFF#48 ↔ s.dec.ocnt.toNat = 2 ^ 48 - 1 := by
    rw [← BitVec.toNat_inj]; simp
  rw [Bool.or_eq_true, decide_eq_true_iff, h.overflow, hlast]
  omega

/-- A step that appends one byte and counts it, after phase MAP. -/
theorem DecInv.emitByte {s : State} {d : DecRegs} (h : DecInv s) (b : Byte) (hd : d.InRange) (hm : d.m = s.dec.m)
    (hmcur : d.mcur = s.dec.mcur) (hocnt : d.ocnt = s.dec.count.ocnt) (hovf : d.ovf = s.dec.count.ovf) :
    DecInv ((s.emitByte b).setDec d) where
  length := hm.trans h.length
  cursor := hd.cursor
  running := hd.running
  early := hd.early
  passed := fun j hj => h.passed j (by simpa [hmcur] using hj)
  mapped := hd.mapped
  kind := hd.kind
  count := by simpa [hocnt] using h.count_succ
  overflow := by simpa [hovf] using h.overflow_succ
  noCodePoints := h.noCodePoints

theorem DecInv.mapEnd {s : State} (h : DecInv s) (hp : s.dec.phase = .map) (hm : s.dec.mcur = s.dec.m) :
    DecInv (s.setDec { s.dec with phase := .header }) :=
  h.setDec ⟨h.cursor, by simp, fun _ => h.early (.inl hp), fun _ => hm, by simp⟩ rfl h.passed rfl rfl

/-- An element MAP accepts is a symbol (R102, R103). -/
theorem symbolAt_of_inRange {s : State} {j : Nat} {c : CPIn} (hr : s.readIC j = some c) (hc : inRange c = true) :
    ∃ w, SymbolAt s j w :=
  ⟨_, c, hr, if_pos hc⟩

theorem DecInv.mapOne {s : State} {c : CPIn} (h : DecInv s) (hp : s.dec.phase = .map) (hm : s.dec.mcur ≠ s.dec.m)
    (hr : s.readIC s.dec.mcur.toNat = some c) (hc : inRange c = true) :
    DecInv (s.setDec { s.dec with mcur := s.dec.mcur + 1 }) := by
  obtain ⟨hmcur, hscur⟩ := h.cursor
  have hsucc : (s.dec.mcur + 1).toNat = s.dec.mcur.toNat + 1 := by bv_omega
  refine h.setDec ⟨⟨by bv_omega, hscur⟩, h.running, h.early, fun hne => absurd hp hne, h.kind⟩ rfl ?_ rfl rfl
  intro j hj
  rcases Nat.lt_succ_iff_lt_or_eq.1 (hsucc ▸ hj) with hlt | rfl
  · exact h.passed j hlt
  · exact symbolAt_of_inRange hr hc

/-- Every step of R258 that does not end the call keeps DEC's invariant. -/
theorem DecMove.keeps_decInv {s t : State} (hi : DecInv s) (h : DecMove s t)
    (ht : t.callState = .busy) : DecInv t := by
  have hscur := hi.cursor.2
  cases h with
  | mapEnd hp hm => exact hi.mapEnd hp hm
  | mapOne c hp hm hr hc => exact hi.mapOne hp hm hr hc
  | header w3 w2 w1 w0 hp hlong =>
    refine hi.setDec (hi.mapped_inRange (by simp [hp]) rfl rfl ?_ (.inl rfl) nofun) rfl hi.passed rfl rfl
    simpa [DecRegs.loadHeader, BitVec.le_def] using hlong
  | lit b hp hlt =>
    exact hi.emitByte b (hi.mapped_inRange (by simp [hp]) rfl rfl (by bv_omega) (.inl hp) (by simp [hp]))
      rfl rfl rfl rfl
  | byteRun kind len hp hlt htag =>
    refine hi.setDec (hi.mapped_inRange (by simp [hp]) rfl rfl ?_ (.inr (.inl rfl)) fun _ => ?_) rfl hi.passed rfl rfl
    · simp only [DecRegs.loadRun_scur]; bv_omega
    · rcases htag with rfl | rfl <;> simp
  | patternRun len p0 p1 hp hlt =>
    refine hi.setDec (hi.mapped_inRange (by simp [hp]) rfl rfl ?_ (.inr (.inl rfl)) ?_) rfl hi.passed rfl rfl
    · simp only [DecRegs.loadPattern]; bv_omega
    · simp [DecRegs.loadPattern]
  | bodyEnd hp hm =>
    exact hi.setDec (hi.mapped_inRange (by simp [hp]) rfl rfl hscur (.inr (.inr rfl)) nofun) rfl hi.passed rfl rfl
  | runEnd hp hr =>
    exact hi.setDec (hi.mapped_inRange (by simp [hp]) rfl rfl hscur (.inl rfl) nofun) rfl hi.passed rfl rfl
  | expandByte b hp hr hk =>
    exact hi.emitByte b (hi.mapped_inRange (by simp [hp]) rfl rfl hscur (.inr (.inl hp)) hi.kind) rfl rfl rfl rfl
  | expandFirst hp hr hs =>
    exact hi.emitByte _ (hi.mapped_inRange (by simp [hp]) rfl rfl hscur (.inr (.inl hp)) hi.kind) rfl rfl rfl rfl
  | expandSecond hp hr hs =>
    exact hi.emitByte _ (hi.mapped_inRange (by simp [hp]) rfl rfl hscur (.inr (.inl hp)) hi.kind) rfl rfl rfl rfl
  | verify hp ha => cases ht
  | fail k hk => cases ht


/-- Every step of R257 that does not end the call keeps ENC's invariant. -/
theorem EncMove.keeps_encInv {s t : State} (hi : EncInv s) (h : EncMove s t) (ht : t.callState = .busy) : EncInv t := by
  cases h with
  | hdr w hp hw => exact hi.hdr w hp
  | literal b x hp hs hr hc hb hx => exact hi.literal _ hp hs hr hb hx
  | run b k len hp hs hr hc hb hk => exact hi.run hp hs hb hk
  | piece hp hs hr => exact hi.piece _ hp hs hr
  | pat0 hp hs => exact hi.pat0 _ hp hs
  | pat1 hp hs => exact hi.pat1 _ hp hs
  | finish hp hs hr hc => cases ht

/-! ### One command of the host (R30, R250, R320) -/

/-- What a command of the host that is not refused does, by command. `letEngine` is no act of the host's own. -/
inductive HostMove (s : State) : HostCmd → State → Prop where
  /-- a register write while BUSY, or of a read-only register (R31, U14) -/
  | ignored (r : HostReg) (v : RegWord) (why : s.callState = .busy ∨ r ∈ [HostReg.status, .err, .outLen]) :
    HostMove s (.writeReg r v) s
  /-- a write of `IN_LEN` -/
  | inLen (v : RegWord) (notBusy : s.callState ≠ .busy) :
    HostMove s (.writeReg .inLen v) { s with inLen := v.setWidth 49 }
  /-- a write of `CTRL` without START -/
  | mode (v : RegWord) (notBusy : s.callState ≠ .busy) (start : ctrlStartBit v = false) :
    HostMove s (.writeReg .ctrl v) { s with mode := ctrlModeBit v }
  /-- START of ENC, in the mode the write leaves (log entry 3) -/
  | startEnc (v : RegWord) (m : BitVec 1) (notBusy : s.callState ≠ .busy) (start : ctrlStartBit v = true)
    (mode : m = ctrlModeBit v ∨ m = s.mode) (enc : m = 0#1) (fits : s.inLen.toNat < 2 ^ 48) :
    HostMove s (.writeReg .ctrl v) (State.startEnc { s with mode := m })
  /-- START of DEC, in the mode the write leaves (log entry 3) -/
  | startDec (v : RegWord) (m : BitVec 1) (notBusy : s.callState ≠ .busy) (start : ctrlStartBit v = true)
    (mode : m = ctrlModeBit v ∨ m = s.mode) (dec : m ≠ 0#1) :
    HostMove s (.writeReg .ctrl v) (State.startDec { s with mode := m })
  /-- a register read -/
  | readReg (r : HostReg) : HostMove s (.readReg r) (s.deliver (s.readReg r))
  /-- a read of an element of `OC` -/
  | readOC (i : Len49) : HostMove s (.readOC i) (s.deliver ((s.readOC i.toNat).setWidth 64))
  /-- a read of an element of `OB` -/
  | readOB (i : Len48) : HostMove s (.readOB i) (s.deliver ((s.readOB i.toNat).setWidth 64))
  /-- the end of a wait, which reads `STATUS` (R322) -/
  | waitDone : HostMove s .waitDone (s.deliver (s.readReg .status))
  /-- a byte of `IB` placed -/
  | placeIB (i : Len48) (b : Byte) (notBusy : s.callState ≠ .busy) : HostMove s (.writeIB i b) (s.placeIB i.toNat b)
  /-- a code point of `IC` placed -/
  | placeIC (i : Len49) (c : CPIn) (notBusy : s.callState ≠ .busy) : HostMove s (.writeIC i c) (s.placeIC i.toNat c)
  /-- power-on reset -/
  | reset (notBusy : s.callState ≠ .busy) :
    HostMove s .reset { State.reset with pending := s.pending, readData := s.readData, freeCount := s.freeCount }

/-- START in mode `m`, by a write of `CTRL` that leaves that mode. -/
theorem hostMove_of_start {s t : State} {v : RegWord} {m : BitVec 1} (hb : s.callState ≠ .busy)
    (hv : ctrlStartBit v = true) (hm : m = ctrlModeBit v ∨ m = s.mode)
    (h : State.start { s with mode := m } = .next t) : HostMove s (.writeReg .ctrl v) t := by
  rcases start_cases { s with mode := m } with ⟨_, _, hs⟩ | ⟨h0, hfit, hs⟩ | ⟨h1, hs⟩
  · rw [hs] at h; cases h
  · rw [hs] at h; cases h; exact .startEnc v m hb hv hm h0 hfit
  · rw [hs] at h; cases h; exact .startDec v m hb hv hm h1

theorem hostMove_of_writeCtrl {s t : State} {v : RegWord} (hb : s.callState ≠ .busy) (h : s.writeCtrl v = .next t) :
    HostMove s (.writeReg .ctrl v) t := by
  unfold State.writeCtrl at h
  split_ifs at h with hv hm
  · exact hostMove_of_start hb hv (.inl rfl) h
  · exact hostMove_of_start hb hv (.inr rfl) h
  · cases h; exact .mode v hb (by simpa using hv)

theorem hostMove_of_writeReg {s t : State} {r : HostReg} {v : RegWord} (h : s.writeReg r v = .next t) :
    HostMove s (.writeReg r v) t := by
  unfold State.writeReg at h
  split at h
  · cases h; exact .ignored r v (.inl ‹_›)
  · rename_i hb
    cases r with
    | ctrl => exact hostMove_of_writeCtrl hb h
    | inLen => cases h; exact .inLen v hb
    | status => cases h; exact .ignored _ v (.inr (by simp))
    | err => cases h; exact .ignored _ v (.inr (by simp))
    | outLen => cases h; exact .ignored _ v (.inr (by simp))

theorem hostPlace_next {s t u : State} (h : s.hostPlace u = .next t) : s.callState ≠ .busy ∧ t = u := by
  unfold State.hostPlace at h
  split at h <;> cases h
  exact ⟨‹_›, rfl⟩

/-- Whatever a command of the host answers is one of its moves. -/
theorem hostMove_of_hostAct {s t : State} {c : HostCmd} (hc : c ≠ .letEngine) (h : hostAct c s = .next t) :
    HostMove s c t := by
  cases c with
  | writeReg r v => exact hostMove_of_writeReg h
  | readReg r => cases h; exact .readReg r
  | writeIB i b => obtain ⟨hb, rfl⟩ := hostPlace_next h; exact .placeIB i b hb
  | writeIC i c => obtain ⟨hb, rfl⟩ := hostPlace_next h; exact .placeIC i c hb
  | readOC i => cases h; exact .readOC i
  | readOB i => cases h; exact .readOB i
  | waitDone => cases h; exact .waitDone
  | letEngine => exact absurd rfl hc
  | reset =>
    simp only [hostAct, State.hostReset] at h
    split at h <;> cases h
    exact .reset ‹_›

/-! ### One step of the machine -/

/-- One step: nothing where no engine is enabled, a step of the engine MODE names, or an act of the host. -/
inductive Move (s : State) : State → Prop where
  /-- R252, R295: no engine has an enabled step -/
  | idle (p : List HostCmd) (notBusy : s.callState ≠ .busy) : Move s { s with pending := p }
  /-- a step of ENC -/
  | enc (p : List HostCmd) (t : State) (busy : s.callState = .busy) (mode : s.mode = 0#1)
    (move : EncMove { s with pending := p } t) : Move s t
  /-- a step of DEC -/
  | dec (p : List HostCmd) (t : State) (busy : s.callState = .busy) (mode : s.mode ≠ 0#1)
    (move : DecMove { s with pending := p } t) : Move s t
  /-- an act of the host -/
  | host (c : HostCmd) (p : List HostCmd) (t : State) (head : s.pending = c :: p)
    (move : HostMove { s with pending := p } c t) : Move s t

theorem move_of_engineTurn {s t : State} {p : List HostCmd} (h : engineTurn { s with pending := p } = .next t) :
    Move s t := by
  by_cases hb : s.callState = .busy
  · rcases engineTurn_busy (s := { s with pending := p }) hb with ⟨hm, he⟩ | ⟨hm, he⟩
    · exact .enc p t hb hm (encMove_of_encStep (he ▸ h))
    · exact .dec p t hb hm (decMove_of_decStep (he ▸ h))
  · rw [engineTurn_idle (s := { s with pending := p }) hb] at h
    cases h
    exact .idle p hb

/-- Whatever a step of the machine answers is one of its moves. -/
theorem move_of_step {s t : State} (h : step s = .next t) : Move s t := by
  rcases step_cases s with ⟨_, hs⟩ | ⟨p, _, hs⟩ | ⟨_, _, _, hs⟩ | ⟨p, hp, _, hs⟩ | ⟨c, p, hp, hne, _, hs⟩
  · exact move_of_engineTurn (p := s.pending) (hs ▸ h)
  · exact move_of_engineTurn (hs ▸ h)
  · exact move_of_engineTurn (p := s.pending) (hs ▸ h)
  · exact .host _ p t hp (hostMove_of_hostAct (by simp) (hs ▸ h))
  · exact .host c p t hp (hostMove_of_hostAct hne (hs ▸ h))

/-! ### The invariant, kept by each kind of write -/

/-- The invariant does not speak of the host's script, its last read or the counter of free values. -/
theorem Inv.hostFields {s : State} (h : Inv s) (p : List HostCmd) (r : RegWord) (f : Nat) :
    Inv { s with pending := p, readData := r, freeCount := f } where
  memory := h.memory
  output := h.output
  noError := h.noError
  error := h.error
  noLength := h.noLength
  outLength := h.outLength
  encoding := fun hb hm => by
    obtain ⟨length, cursor, running, header, sub, kind, count, budget, noBytes⟩ := h.encoding hb hm
    exact ⟨length, cursor, running, header, sub, kind, count, budget, noBytes⟩
  decoding := fun hb hm => by
    obtain ⟨length, cursor, running, early, passed, mapped, kind, count, overflow, noCodePoints⟩ := h.decoding hb hm
    exact ⟨length, cursor, running, early, passed, mapped, kind, count, overflow, noCodePoints⟩

/-- A register write or a placing by the host, no call in progress. -/
theorem Inv.hostWrite {s : State} (h : Inv s) (hb : s.callState ≠ .busy) (m : BitVec 1) (n : Len49)
    {ib : List Host.Cell} {ic : List (Nat × CPIn)} (hwf : Memory.wf { s.mem with ib := ib, ic := ic }) :
    Inv { s with mode := m, inLen := n, mem := { s.mem with ib := ib, ic := ic } } where
  memory := hwf
  output := h.output
  noError := h.noError
  error := h.error
  noLength := h.noLength
  outLength := h.outLength
  encoding := fun hbusy => absurd hbusy hb
  decoding := fun hbusy => absurd hbusy hb

theorem inv_reset : Inv State.reset where
  memory := reset_wf
  output := by simp [State.reset, Memory.reset]
  noError := fun _ => rfl
  error := nofun
  noLength := fun _ => rfl
  outLength := nofun
  encoding := nofun
  decoding := nofun

/-- R43, R321: ENC's registers at START are in their ranges. -/
theorem encInv_startEnc {s : State} (h : s.inLen.toNat < 2 ^ 48) : EncInv s.startEnc where
  length := ⟨h, rfl⟩
  cursor := by simp [EncRegs.start, BitVec.le_def]
  running := by simp [EncRegs.start]
  header := by simp [EncRegs.start]
  sub := by simp [EncRegs.start]
  kind := by simp [EncRegs.start]
  count := by simp [EncRegs.start]
  budget := by simp [EncRegs.owed_eq_zero (e := EncRegs.start s.inLen s.freeCount) rfl rfl]
  noBytes := rfl

/-- R43, R321: DEC's registers at START are in their ranges. -/
theorem decInv_startDec (s : State) : DecInv s.startDec where
  length := rfl
  cursor := by simp [DecRegs.start, BitVec.le_def]
  running := by simp [DecRegs.start]
  early := by simp [DecRegs.start]
  passed := by simp [DecRegs.start]
  mapped := by simp [DecRegs.start]
  kind := by simp [DecRegs.start]
  count := by simp [DecRegs.start]
  overflow := by simp [DecRegs.start]
  noCodePoints := rfl

theorem Inv.startEnc {s : State} (h : Inv s) (hm : s.mode = 0#1) (hfit : s.inLen.toNat < 2 ^ 48) : Inv s.startEnc where
  memory := h.memory
  output := by simp
  noError := fun _ => rfl
  error := nofun
  noLength := fun _ => rfl
  outLength := nofun
  encoding := fun _ _ => encInv_startEnc hfit
  decoding := fun _ hm1 => by simp [hm] at hm1

theorem Inv.startDec {s : State} (h : Inv s) (hm : s.mode ≠ 0#1) : Inv s.startDec where
  memory := h.memory
  output := by simp
  noError := fun _ => rfl
  error := nofun
  noLength := fun _ => rfl
  outLength := nofun
  encoding := fun _ hm0 => absurd hm0 hm
  decoding := fun _ _ => decInv_startDec s

/-- R288: failure entry gives `ERR` and `OUT_LEN` the values FAILED goes with. -/
theorem Inv.failCall {s : State} (h : Inv s) {k : FailureKind} (hk : k ≠ .emptyInput) : Inv (s.failCall k) where
  memory := h.memory
  output := h.output
  noError := fun hne => absurd rfl hne
  error := fun _ => by cases k <;> simp [FailureKind.code] at hk ⊢
  noLength := fun _ => rfl
  outLength := nofun
  encoding := nofun
  decoding := nofun

/-- R251: E.END's `OUT_LEN` is the number of code points appended. -/
theorem Inv.finishEnc {s : State} (h : Inv s) (he : EncInv s) : Inv s.finishEnc where
  memory := h.memory
  output := h.output
  noError := fun _ => rfl
  error := nofun
  noLength := fun hne => absurd rfl hne
  outLength := fun _ => by simp [he.count, he.noBytes]
  encoding := nofun
  decoding := nofun

/-- R243, R251: where D.VER finds the counts to agree, `OUT_LEN` is the number of bytes appended. -/
theorem Inv.finishDec {s : State} (h : Inv s) (hd : DecInv s) (ha : s.dec.mismatch = false) : Inv s.finishDec where
  memory := h.memory
  output := h.output
  noError := fun _ => rfl
  error := nofun
  noLength := fun hne => absurd rfl hne
  outLength := fun _ => by
    have hovf : s.dec.ovf = false := (Bool.or_eq_false_iff.1 ha).1
    have hlt : s.mem.ob.length < 2 ^ 48 := Nat.lt_of_not_le fun hge => by simp [hd.overflow.2 hge] at hovf
    have hcount : s.dec.ocnt.toNat = s.mem.ob.length := hd.count.trans (Nat.mod_eq_of_lt hlt)
    simp [hcount, hd.noCodePoints]
    omega
  encoding := nofun
  decoding := nofun

/-- R24: every code point ENC appends lies in [0xE000, 0xEFFF]. -/
theorem codePoint_mem_range (w : Sym) : 0xE000 ≤ (codePoint w).toNat ∧ (codePoint w).toNat ≤ 0xEFFF := by
  have hw := w.isLt
  rw [codePoint_toNat]
  omega

/-- A step inside an encode call: ENC's registers and `OC` change. -/
theorem Inv.encStep {s : State} (h : Inv s) (hb : s.callState = .busy) (hm : s.mode = 0#1) {e : EncRegs}
    {oc : List CPOut} (hoc : ∀ c ∈ oc, 0xE000 ≤ c.toNat ∧ c.toNat ≤ 0xEFFF)
    (he : EncInv { s with enc := e, mem := { s.mem with oc := oc } }) :
    Inv { s with enc := e, mem := { s.mem with oc := oc } } where
  memory := h.memory
  output := hoc
  noError := h.noError
  error := h.error
  noLength := h.noLength
  outLength := fun hd => by simp [hb] at hd
  encoding := fun _ _ => he
  decoding := fun _ hm1 => by simp [hm] at hm1

theorem Inv.emitSymbol {s : State} (h : Inv s) (hb : s.callState = .busy) (hm : s.mode = 0#1) {w : Sym} {e : EncRegs}
    (he : EncInv ((s.emitSymbol w).setEnc e)) : Inv ((s.emitSymbol w).setEnc e) := by
  refine h.encStep hb hm (fun c hc => ?_) he
  rcases List.mem_append.1 hc with hc | hc
  · exact h.output c hc
  · exact List.mem_singleton.1 hc ▸ codePoint_mem_range w

/-- A step inside a decode call: DEC's registers and `OB` change. -/
theorem Inv.decStep {s : State} (h : Inv s) (hb : s.callState = .busy) (hm : s.mode ≠ 0#1) {d : DecRegs}
    {ob : List Byte} (hd : DecInv { s with dec := d, mem := { s.mem with ob := ob } }) :
    Inv { s with dec := d, mem := { s.mem with ob := ob } } where
  memory := h.memory
  output := h.output
  noError := h.noError
  error := h.error
  noLength := h.noLength
  outLength := fun hd => by simp [hb] at hd
  encoding := fun _ hm0 => absurd hm0 hm
  decoding := fun _ _ => hd

/-! ### What an engine's step writes, whichever step it is -/

/-- R62: a step of ENC writes its registers, appends one code point besides, or ends the call. -/
theorem EncMove.effect {s t : State} (h : EncMove s t) :
    (∃ e, t = s.setEnc e) ∨ (∃ w e, t = (s.emitSymbol w).setEnc e) ∨ t = s.finishEnc := by
  cases h with
  | hdr | literal | piece | pat0 | pat1 => exact .inr (.inl ⟨_, _, rfl⟩)
  | run => exact .inl ⟨_, rfl⟩
  | finish => exact .inr (.inr rfl)

/-- R62, R288: a step of DEC writes its registers, appends one byte besides, ends the call, or fails it. -/
theorem DecMove.effect {s t : State} (h : DecMove s t) :
    (∃ d, t = s.setDec d) ∨ (∃ b d, t = (s.emitByte b).setDec d) ∨
      (t = s.finishDec ∧ s.dec.mismatch = false) ∨ ∃ k, k ≠ .emptyInput ∧ t = s.failCall k := by
  cases h with
  | mapEnd | mapOne | header | byteRun | patternRun | bodyEnd | runEnd => exact .inl ⟨_, rfl⟩
  | lit | expandByte | expandFirst | expandSecond => exact .inr (.inl ⟨_, _, rfl⟩)
  | verify hp ha => exact .inr (.inr (.inl ⟨rfl, ha⟩))
  | fail k hk => exact .inr (.inr (.inr ⟨k, hk, rfl⟩))

/-! ### The invariant, kept by every step -/

theorem decInv_of_busy {s : State} (h : Inv s) (hb : s.callState = .busy) (hm : s.mode ≠ 0#1) : DecInv s :=
  h.decoding hb ((BitVec.eq_zero_or_eq_one s.mode).resolve_left hm)

theorem EncMove.keeps_inv {s t : State} (h : Inv s) (hb : s.callState = .busy) (hm : s.mode = 0#1)
    (hmove : EncMove s t) : Inv t := by
  have he := h.encoding hb hm
  rcases hmove.effect with ⟨e, rfl⟩ | ⟨w, e, rfl⟩ | rfl
  · exact h.encStep hb hm h.output (hmove.keeps_encInv he hb)
  · exact h.emitSymbol hb hm (hmove.keeps_encInv he hb)
  · exact h.finishEnc he

theorem DecMove.keeps_inv {s t : State} (h : Inv s) (hb : s.callState = .busy) (hm : s.mode ≠ 0#1)
    (hmove : DecMove s t) : Inv t := by
  have hd := decInv_of_busy h hb hm
  rcases hmove.effect with ⟨d, rfl⟩ | ⟨b, d, rfl⟩ | ⟨rfl, ha⟩ | ⟨k, hk, rfl⟩
  · exact h.decStep hb hm (hmove.keeps_decInv hd hb)
  · exact h.decStep hb hm (hmove.keeps_decInv hd hb)
  · exact h.finishDec hd ha
  · exact h.failCall hk

theorem HostMove.keeps_inv {s t : State} {c : HostCmd} (h : Inv s) (hmove : HostMove s c t) : Inv t := by
  cases hmove with
  | ignored r v why => exact h
  | inLen v hb => exact h.hostWrite hb s.mode _ h.memory
  | mode v hb => exact h.hostWrite hb _ s.inLen h.memory
  | startEnc v m hb hv hm h0 hfit => exact (h.hostWrite hb m s.inLen h.memory).startEnc h0 hfit
  | startDec v m hb hv hm h1 => exact (h.hostWrite hb m s.inLen h.memory).startDec h1
  | readReg | readOC | readOB | waitDone => exact h.hostFields _ _ _
  | placeIB i b hb => exact h.hostWrite hb s.mode s.inLen (placeIB_wf i.isLt h.memory)
  | placeIC i c hb => exact h.hostWrite hb s.mode s.inLen (placeIC_wf i.isLt h.memory)
  | reset hb => exact inv_reset.hostFields _ _ _

theorem Move.keeps_inv {s t : State} (h : Inv s) (hmove : Move s t) : Inv t := by
  have hp : ∀ p, Inv { s with pending := p } := fun p => h.hostFields p s.readData s.freeCount
  cases hmove with
  | idle p hb => exact hp p
  | enc p t hb hm he => exact he.keeps_inv (hp p) hb hm
  | dec p t hb hm hd => exact hd.keeps_inv (hp p) hb hm
  | host c p t hc hh => exact hh.keeps_inv (hp p)

/-- Settles O46: each move of the machine keeps the invariant. -/
theorem stepKeepsInv : Obligations.StepKeepsInv :=
  fun _ _ h hstep => (move_of_step hstep).keeps_inv h

/-- Settles O45. -/
theorem resetMeetsInv : Obligations.ResetMeetsInv := inv_reset

/-! ### The transitions of `STATUS.STATE` (R32) -/

theorem EncMove.callState {s t : State} (h : EncMove s t) : t.callState = s.callState ∨ t.callState = .done := by
  rcases h.effect with ⟨e, rfl⟩ | ⟨w, e, rfl⟩ | rfl
  · exact .inl rfl
  · exact .inl rfl
  · exact .inr rfl

theorem DecMove.callState {s t : State} (h : DecMove s t) :
    t.callState = s.callState ∨ t.callState = .done ∨ t.callState = .failed := by
  rcases h.effect with ⟨d, rfl⟩ | ⟨b, d, rfl⟩ | ⟨rfl, _⟩ | ⟨k, _, rfl⟩
  · exact .inl rfl
  · exact .inl rfl
  · exact .inr (.inl rfl)
  · exact .inr (.inr rfl)

theorem HostMove.callState {s t : State} {c : HostCmd} (h : HostMove s c t) :
    t.callState = s.callState ∨
      (s.callState ≠ .busy ∧ t.callState = .busy ∧ ∃ v, c = .writeReg .ctrl v ∧ ctrlStartBit v = true) ∨
      (s.callState ≠ .busy ∧ t.callState = .idle ∧ c = .reset) := by
  cases h with
  | ignored | inLen | mode | readReg | readOC | readOB | waitDone | placeIB | placeIC => exact .inl rfl
  | startEnc v m hb hv => exact .inr (.inl ⟨hb, rfl, v, rfl, hv⟩)
  | startDec v m hb hv => exact .inr (.inl ⟨hb, rfl, v, rfl, hv⟩)
  | reset hb => exact .inr (.inr ⟨hb, rfl, rfl⟩)

/-- R32: each transition with what causes it. -/
theorem Move.callState {s t : State} (h : Move s t) :
    t.callState = s.callState ∨
      (s.callState = .busy ∧ (t.callState = .done ∨ t.callState = .failed)) ∨
      (s.callState ≠ .busy ∧ t.callState = .busy ∧
        ∃ v rest, s.pending = .writeReg .ctrl v :: rest ∧ ctrlStartBit v = true) ∨
      (s.callState ≠ .busy ∧ t.callState = .idle ∧ ∃ rest, s.pending = .reset :: rest) := by
  cases h with
  | idle p hb => exact .inl rfl
  | enc p t hb hm he => exact he.callState.imp id fun hd => .inl ⟨hb, .inl hd⟩
  | dec p t hb hm hd => exact hd.callState.imp id fun hd => .inl ⟨hb, hd⟩
  | host c p t hc hh =>
    rcases hh.callState with heq | ⟨hb, ht, v, rfl, hv⟩ | ⟨hb, ht, rfl⟩
    · exact .inl heq
    · exact .inr (.inr (.inl ⟨hb, ht, v, p, hc, hv⟩))
    · exact .inr (.inr (.inr ⟨hb, ht, p, hc⟩))

/-- Settles O42: by the causes of each transition. -/
theorem stateTransitionsAreTheListed : Obligations.StateTransitionsAreTheListed := by
  intro s t hstep
  rcases (move_of_step hstep).callState with heq | ⟨hb, ht⟩ | ⟨hb, ht, hstart⟩ | ⟨hb, ht, hreset⟩
  · exact ⟨.inl heq.symm, fun hs htb => absurd (heq ▸ htb) hs, fun _ hti hs => absurd (heq ▸ hti) hs⟩
  · exact ⟨.inr (.inr (.inl ⟨hb, ht⟩)), fun hs => absurd hb hs, fun hs => absurd hb hs⟩
  · exact ⟨.inr (.inl ⟨hb, ht⟩), fun _ _ => hstart, fun _ hti => by simp [ht] at hti⟩
  · exact ⟨.inr (.inr (.inr ⟨hb, ht⟩)), fun _ htb => by simp [ht] at htb, fun _ _ _ => hreset⟩

/-! ### The cursors (R38, R39) -/

/-- R38: a token taken moves `CUR` past the bytes it covers, and every other step leaves it. -/
theorem EncMove.cur_le {s t : State} (h : EncMove s t) : s.enc.cur ≤ t.enc.cur := by
  cases h with
  | hdr | piece | pat0 | pat1 | finish => exact BitVec.le_refl s.enc.cur
  | literal b x hp hs hr hc hb hx =>
    rw [BitVec.le_def]
    exact (Nat.le_add_right _ _).trans (cur_add_byteLen hb hx).1.ge
  | run b k len hp hs hr hc hb hk =>
    rw [BitVec.le_def, State.setEnc_enc, EncRegs.loadRun_cur]
    exact (Nat.le_add_right _ _).trans (cur_add_byteLen hb hk).1.ge

theorem EncMove.dec_eq {s t : State} (h : EncMove s t) : t.dec = s.dec := by
  rcases h.effect with ⟨e, rfl⟩ | ⟨w, e, rfl⟩ | rfl <;> rfl

theorem DecMove.enc_eq {s t : State} (h : DecMove s t) : t.enc = s.enc := by
  rcases h.effect with ⟨d, rfl⟩ | ⟨b, d, rfl⟩ | ⟨rfl, _⟩ | ⟨k, _, rfl⟩ <;> rfl

/-- R39: where DEC's registers are in their ranges, neither `MCUR` nor `SCUR` goes back or wraps round. -/
theorem DecMove.cursors_le {s t : State} (hi : DecInv s) (h : DecMove s t) :
    s.dec.mcur ≤ t.dec.mcur ∧ s.dec.scur ≤ t.dec.scur := by
  have hmcur := BitVec.le_refl s.dec.mcur
  have hscur := BitVec.le_refl s.dec.scur
  cases h with
  | mapEnd | bodyEnd | runEnd | expandByte | expandFirst | expandSecond | verify | fail => exact ⟨hmcur, hscur⟩
  | mapOne c hp hne =>
    have hle := hi.cursor.1
    exact ⟨by simp only [State.setDec_dec]; bv_omega, hscur⟩
  | header w3 w2 w1 w0 hp =>
    exact ⟨hmcur, by simp [hi.early (.inr hp), BitVec.le_def]⟩
  | lit b hp hlt => exact ⟨hmcur, by simp only [State.setDec_dec]; bv_omega⟩
  | byteRun kind len hp hlt => exact ⟨hmcur, by simp only [State.setDec_dec, DecRegs.loadRun_scur]; bv_omega⟩
  | patternRun len p0 p1 hp hlt => exact ⟨hmcur, by simp only [State.setDec_dec, DecRegs.loadPattern]; bv_omega⟩

/-- While BUSY the host's acts leave both engines' registers as they are (R31). -/
theorem HostMove.busy_regs_eq {s t : State} {c : HostCmd} (hb : s.callState = .busy) (h : HostMove s c t) :
    t.enc = s.enc ∧ t.dec = s.dec := by
  cases h with
  | ignored | readReg | readOC | readOB | waitDone => exact ⟨rfl, rfl⟩
  | inLen _ hn | mode _ hn | startEnc _ _ hn | startDec _ _ hn | placeIB _ _ hn | placeIC _ _ hn | reset hn =>
    exact absurd hb hn

/-- Settles O44: by the cursors' writes in each move. -/
theorem cursorsNeverGoBack : Obligations.CursorsNeverGoBack := by
  intro s t hi hb hstep
  have hcur := BitVec.le_refl s.enc.cur
  have hmcur := BitVec.le_refl s.dec.mcur
  have hscur := BitVec.le_refl s.dec.scur
  cases move_of_step hstep with
  | idle p hn => exact absurd hb hn
  | enc p t _ hm he => exact ⟨he.cur_le, by rw [he.dec_eq]; exact ⟨hmcur, hscur⟩⟩
  | dec p t _ hm hd =>
    have hinv : DecInv { s with pending := p } :=
      decInv_of_busy (hi.hostFields p s.readData s.freeCount) hb hm
    exact ⟨by rw [hd.enc_eq]; exact hcur, hd.cursors_le (s := { s with pending := p }) hinv⟩
  | host c p t hc hh =>
    obtain ⟨henc, hdec⟩ := hh.busy_regs_eq (s := { s with pending := p }) hb
    exact ⟨by rw [henc]; exact hcur, by rw [hdec]; exact ⟨hmcur, hscur⟩⟩

/-! ### The register interface (R30, R31) -/

/-- A register write at the head of the script is the host's step. -/
theorem step_writeReg {s : State} {r : HostReg} {v : RegWord} {rest : List HostCmd}
    (h : s.pending = .writeReg r v :: rest) : step s = State.writeReg { s with pending := rest } r v := by
  simp [step, turn, h, hostAct]

theorem step_readReg {s : State} {r : HostReg} {rest : List HostCmd} (h : s.pending = .readReg r :: rest) :
    step s = .next (State.deliver { s with pending := rest } (s.readReg r)) := by
  simp only [step, turn, h, hostAct]
  rfl

/-- R322 step 4: a wait ends where the call has ended. -/
theorem step_waitDone_ended {s : State} {rest : List HostCmd} (h : s.pending = .waitDone :: rest)
    (he : s.callState.ended = true) :
    step s = .next (State.deliver { s with pending := rest } (s.readReg .status)) := by
  simp only [step, turn, h, he, hostAct, if_true]
  rfl

theorem writeReg_busy {s : State} (hb : s.callState = .busy) (r : HostReg) (v : RegWord) :
    s.writeReg r v = .next s := by
  simp [State.writeReg, hb]

theorem writeReg_inLen {s : State} (hb : s.callState ≠ .busy) (v : RegWord) :
    s.writeReg .inLen v = .next { s with inLen := v.extractLsb' 0 49 } := by
  simp [State.writeReg, hb, BitVec.setWidth_eq_extractLsb']

theorem writeReg_ctrl_noStart {s : State} (hb : s.callState ≠ .busy) {v : RegWord} (hv : v.getLsbD 1 = false) :
    s.writeReg .ctrl v = .next { s with mode := v.extractLsb' 0 1 } := by
  have hstart : ctrlStartBit v = false := hv
  simp [State.writeReg, State.writeCtrl, hstart, ctrlModeBit, hb]

theorem writeReg_readOnly {s : State} {r : HostReg} (hr : r ∈ [HostReg.status, .err, .outLen]) (v : RegWord) :
    s.writeReg r v = .next s := by
  cases r <;> simp [State.writeReg] at hr ⊢

/-- Settles O56: by what a register write does, register by register. -/
theorem registerWritesTakeTheirFields : Obligations.RegisterWritesTakeTheirFields := by
  intro s v rest
  refine ⟨fun hb r hp => ?_, fun hb hp => ?_, fun hb hp hv => ?_, fun _ r hr hp => ?_⟩ <;> rw [step_writeReg hp]
  · exact writeReg_busy (s := { s with pending := rest }) hb r v
  · exact writeReg_inLen (s := { s with pending := rest }) hb v
  · exact writeReg_ctrl_noStart (s := { s with pending := rest }) hb hv
  · exact writeReg_readOnly hr v

/-- A field no wider than the host's word keeps its value in it. -/
theorem toNat_regWord {w : Nat} (hw : w ≤ 64) (x : BitVec w) : (x.setWidth 64 : RegWord).toNat = x.toNat :=
  BitVec.toNat_setWidth_of_le hw

/-- R32: the word a read of `STATUS` returns. -/
theorem readReg_status_toNat (s : State) : (s.readReg .status).toNat = s.callState.value.toNat :=
  toNat_regWord (by omega) s.callState.value

/-- Settles O57: field by field. -/
theorem registerReadBits : Obligations.RegisterReadBits := by
  intro s i
  refine ⟨?_, ?_, ?_, toNat_regWord (by omega) s.inLen, fun hb => ?_⟩
  · by_cases hi : i = 0
    · simp [State.readReg, hi]
    · simp [State.readReg, hi, BitVec.getLsbD_of_ge s.mode i (by omega)]
  · rw [readReg_status_toNat]
    cases s.callState <;> rfl
  · by_cases hi : i < 3
    · simp [State.readReg, hi, show i < 64 by omega]
    · simp [State.readReg, hi, BitVec.getLsbD_of_ge s.errCode i (by omega)]
  · rw [State.readReg, if_neg hb]
    exact toNat_regWord (by omega) s.outLen

/-- Settles O60: a read and the end of a wait are one delivery. -/
theorem registerReadsDeliver : Obligations.RegisterReadsDeliver := by
  intro s rest
  refine ⟨fun r hp => step_readReg hp, fun hp hended => step_waitDone_ended hp ?_⟩
  rcases hended with hc | hc <;> simp [hc, CallState.ended]

end Sys2Proof.Machine

/-! SUPPORT. The buffers (20_memory.md): what one step may write of them while BUSY, and the host's placing of input
elements. -/

namespace Sys2Proof.Machine

/-! ### What a step of an engine, or of the host while BUSY, writes of the buffers (R61, R62) -/

/-- R62: a step of ENC writes no buffer but `OC`, and appends at most one code point to it. -/
theorem EncMove.mem {s t : State} (h : EncMove s t) :
    t.mem = s.mem ∨ ∃ c, t.mem = { s.mem with oc := s.mem.oc ++ [c] } := by
  rcases h.effect with ⟨e, rfl⟩ | ⟨w, e, rfl⟩ | rfl
  · exact .inl rfl
  · exact .inr ⟨codePoint w, rfl⟩
  · exact .inl rfl

/-- R62: a step of DEC writes no buffer but `OB`, and appends at most one byte to it. -/
theorem DecMove.mem {s t : State} (h : DecMove s t) :
    t.mem = s.mem ∨ ∃ b, t.mem = { s.mem with ob := s.mem.ob ++ [b] } := by
  rcases h.effect with ⟨d, rfl⟩ | ⟨b, d, rfl⟩ | ⟨rfl, _⟩ | ⟨k, _, rfl⟩
  · exact .inl rfl
  · exact .inr ⟨b, rfl⟩
  · exact .inl rfl
  · exact .inl rfl

theorem EncMove.call_eq {s t : State} (h : EncMove s t) : t.mode = s.mode ∧ t.inLen = s.inLen := by
  rcases h.effect with ⟨e, rfl⟩ | ⟨w, e, rfl⟩ | rfl <;> exact ⟨rfl, rfl⟩

theorem DecMove.call_eq {s t : State} (h : DecMove s t) : t.mode = s.mode ∧ t.inLen = s.inLen := by
  rcases h.effect with ⟨d, rfl⟩ | ⟨b, d, rfl⟩ | ⟨rfl, _⟩ | ⟨k, _, rfl⟩ <;> exact ⟨rfl, rfl⟩

/-- R31, R72: while BUSY the host's register writes are ignored and it places nothing. -/
theorem HostMove.busy_call_eq {s t : State} {c : HostCmd} (hb : s.callState = .busy) (h : HostMove s c t) :
    t.mem = s.mem ∧ t.mode = s.mode ∧ t.inLen = s.inLen := by
  cases h with
  | ignored | readReg | readOC | readOB | waitDone => exact ⟨rfl, rfl, rfl⟩
  | inLen _ hn | mode _ hn | startEnc _ _ hn | startDec _ _ hn | placeIB _ _ hn | placeIC _ _ hn | reset hn =>
    exact absurd hb hn

/-- R31: the call's parameters stand still while BUSY. -/
theorem Move.busy_call_eq {s t : State} (hb : s.callState = .busy) (h : Move s t) :
    t.mode = s.mode ∧ t.inLen = s.inLen := by
  cases h with
  | idle p hn => exact absurd hb hn
  | enc p t _ hm he => exact he.call_eq
  | dec p t _ hm hd => exact hd.call_eq
  | host c p t hc hh => exact (hh.busy_call_eq (s := { s with pending := p }) hb).2

/-- R61, R62: while BUSY only the active engine writes a buffer, and only by one Append to its own output. -/
theorem Move.busy_mem {s t : State} (hb : s.callState = .busy) (h : Move s t) :
    t.mem = s.mem ∨
      (s.mode = 0#1 ∧ ∃ c, t.mem = { s.mem with oc := s.mem.oc ++ [c] }) ∨
      (s.mode = 1#1 ∧ ∃ b, t.mem = { s.mem with ob := s.mem.ob ++ [b] }) := by
  cases h with
  | idle p hn => exact absurd hb hn
  | enc p t _ hm he => exact he.mem.imp id fun happ => .inl ⟨hm, happ⟩
  | dec p t _ hm hd =>
    have hm1 : s.mode = 1#1 := (BitVec.eq_zero_or_eq_one s.mode).resolve_left hm
    exact hd.mem.imp id fun happ => .inr ⟨hm1, happ⟩
  | host c p t hc hh => exact .inl (hh.busy_call_eq (s := { s with pending := p }) hb).1

/-- Settles O41: by the three things a BUSY step may do to the memory. -/
theorem busyStepOnlyAppends : Obligations.BusyStepOnlyAppends := by
  intro s t hb hstep
  have hmove := move_of_step hstep
  obtain ⟨hmode, hlen⟩ := hmove.busy_call_eq hb
  rcases hmove.busy_mem hb with hmem | ⟨hm, c, hmem⟩ | ⟨hm, b, hmem⟩ <;> rw [hmem]
  · exact ⟨rfl, rfl, hmode, hlen, .inl ⟨rfl, rfl⟩⟩
  · exact ⟨rfl, rfl, hmode, hlen, .inr (.inl ⟨c, rfl, rfl, hm⟩)⟩
  · exact ⟨rfl, rfl, hmode, hlen, .inr (.inr ⟨b, rfl, rfl, hm⟩)⟩

/-! ### The host's placing of input elements (R60, R72) -/

@[simp] theorem readIB_placeIB_same (s : State) (i : Nat) (b : Byte) : (s.placeIB i b).readIB i = some b :=
  lookup_place_same s.mem.ib i b

@[simp] theorem readIC_placeIC_same (s : State) (i : Nat) (c : CPIn) : (s.placeIC i c).readIC i = some c :=
  lookup_place_same s.mem.ic i c

theorem readIB_placeIB_other (s : State) {i j : Nat} (b : Byte) (h : j ≠ i) :
    (s.placeIB i b).readIB j = s.readIB j :=
  lookup_place_other s.mem.ib i j b h

theorem readIC_placeIC_other (s : State) {i j : Nat} (c : CPIn) (h : j ≠ i) :
    (s.placeIC i c).readIC j = s.readIC j :=
  lookup_place_other s.mem.ic i j c h

theorem hostPlace_of_notBusy {s : State} (hb : s.callState ≠ .busy) (t : State) : s.hostPlace t = .next t :=
  if_neg hb

/-- A placing of a byte at the head of the script is the host's step. -/
theorem step_writeIB {s : State} {i : Len48} {b : Byte} {rest : List HostCmd} (hb : s.callState ≠ .busy)
    (h : s.pending = .writeIB i b :: rest) :
    step s = .next (State.placeIB { s with pending := rest } i.toNat b) := by
  simp only [step, turn, h, hostAct]
  exact hostPlace_of_notBusy (s := { s with pending := rest }) hb _

/-- A placing of a code point at the head of the script is the host's step. -/
theorem step_writeIC {s : State} {i : Len49} {c : CPIn} {rest : List HostCmd} (hb : s.callState ≠ .busy)
    (h : s.pending = .writeIC i c :: rest) :
    step s = .next (State.placeIC { s with pending := rest } i.toNat c) := by
  simp only [step, turn, h, hostAct]
  exact hostPlace_of_notBusy (s := { s with pending := rest }) hb _

/-- Settles O58: the step is the placing, and a placing reads back. -/
theorem placedElementsReadBack : Obligations.PlacedElementsReadBack := by
  intro s rest hb
  refine ⟨fun i b hp => ⟨_, step_writeIB hb hp, ?_, fun j hj => ?_, rfl⟩,
    fun i c hp => ⟨_, step_writeIC hb hp, ?_, fun j hj => ?_, rfl⟩⟩
  · exact readIB_placeIB_same _ i.toNat b
  · exact readIB_placeIB_other { s with pending := rest } b hj
  · exact readIC_placeIC_same _ i.toNat c
  · exact readIC_placeIC_other { s with pending := rest } c hj

end Sys2Proof.Machine

/-! SUPPORT. The encoding (30_encoding.md): a symbol is the fields it is cut into, the decoder and the encoder undo each
other, and the mapping of symbols to code points. -/

namespace Sys2Proof

/-! ### A symbol is its fields put together again (R91 to R95) -/

theorem symTag_append_symLen (w : Sym) : (symTag w ++ symLen w : BitVec (2 + 10)) = w :=
  BitVec.extractLsb'_append_extractLsb' (w := 2) (len := 10) (x := w)

theorem symTop_append_symByte (w : Sym) : (symTop w ++ symByte w : BitVec (4 + 8)) = w :=
  BitVec.extractLsb'_append_extractLsb' (w := 4) (len := 8) (x := w)

theorem symTag_append_symHigh (w : Sym) : (symTag w ++ symHigh w : BitVec (2 + 2)) = symTop w :=
  BitVec.extractLsb'_append_extractLsb'_eq_extractLsb' rfl

/-- A run head of known tag is that tag over its length field. -/
theorem append_symLen {w : Sym} {t : BitVec 2} (h : symTag w = t) : (t ++ symLen w : BitVec (2 + 10)) = w :=
  h ▸ symTag_append_symLen w

/-- A symbol of known bits [11:8] is those over its byte. -/
theorem append_symByte {w : Sym} {t : BitVec 4} (h : symTop w = t) : (t ++ symByte w : BitVec (4 + 8)) = w :=
  h ▸ symTop_append_symByte w

theorem symTop_eq {w : Sym} {t u : BitVec 2} (ht : symTag w = t) (hu : symHigh w = u) :
    symTop w = (t ++ u : BitVec (2 + 2)) := by
  rw [← symTag_append_symHigh, ht, hu]

/-- A two-bit field that is none of 01, 10, 11 is 00. -/
theorem field2_eq_zero {t : BitVec 2} (h1 : t ≠ 0b01#2) (h2 : t ≠ 0b10#2) (h3 : t ≠ 0b11#2) : t = 0#2 := by
  bv_omega

/-! ### What the decoder answers, and that the encoder undoes it (R97, R112) -/

theorem decodeToken_position (w : Sym) : (decodeToken w).position = .token := by
  unfold decodeToken
  split_ifs <;> rfl

/-- R92, R104: whichever of the seven formats the tag and the bits [9:8] pick, its layout puts the same bits back. -/
theorem encodeSym_decodeToken (w : Sym) : encodeSym (decodeToken w) = w := by
  unfold decodeToken
  split_ifs with t1 t2 t3 b1 b2 b3
  · exact append_symLen t1
  · exact append_symLen t2
  · exact append_symLen t3
  · exact append_symByte (symTop_eq (field2_eq_zero t1 t2 t3) b1)
  · exact append_symByte (symTop_eq (field2_eq_zero t1 t2 t3) b2)
  · exact append_symByte (symTop_eq (field2_eq_zero t1 t2 t3) b3)
  · exact append_symByte (symTop_eq (field2_eq_zero t1 t2 t3) (field2_eq_zero b1 b2 b3))

theorem patternByte_eq_some_iff {w : Sym} {b : Byte} : patternByte w = some b ↔ symTop w = 0#4 ∧ symByte w = b := by
  simp [patternByte]

theorem patternByte_eq_none_iff {w : Sym} : patternByte w = none ↔ symTop w ≠ 0#4 := by
  simp [patternByte]

/-- R95: the byte of a pattern payload under four zero bits is the payload. -/
theorem append_patternByte {w : Sym} {b : Byte} (h : patternByte w = some b) : (0#4 ++ b : BitVec (4 + 8)) = w := by
  obtain ⟨htop, rfl⟩ := patternByte_eq_some_iff.1 h
  exact append_symByte htop

theorem decodeSym_pat0_eq_ok_iff {w : Sym} {i : Instr} :
    decodeSym .pat0 w = .ok i ↔ ∃ b, patternByte w = some b ∧ i = .pat0 b := by
  cases h : patternByte w <;> simp [decodeSym, h, eq_comm]

theorem decodeSym_pat1_eq_ok_iff {w : Sym} {i : Instr} :
    decodeSym .pat1 w = .ok i ↔ ∃ b, patternByte w = some b ∧ i = .pat1 b := by
  cases h : patternByte w <;> simp [decodeSym, h, eq_comm]

/-- R105: a symbol in a PAT position is refused exactly when it has no pattern byte. -/
theorem decodeSym_pattern_refuses_iff {p : Position} (hp : p = .pat0 ∨ p = .pat1) (w : Sym) :
    (∃ e, decodeSym p w = .error e) ↔ patternByte w = none := by
  rcases hp with rfl | rfl <;> cases h : patternByte w <;> simp [decodeSym, h]

/-- R97: every symbol has a meaning in every other position. -/
theorem decodeSym_total {p : Position} (h0 : p ≠ .pat0) (h1 : p ≠ .pat1) (w : Sym) :
    ∃ i, decodeSym p w = .ok i := by
  cases p with
  | pat0 => exact absurd rfl h0
  | pat1 => exact absurd rfl h1
  | hdr3 | hdr2 | hdr1 | hdr0 | token => exact ⟨_, rfl⟩

/-- R112: an instruction's symbol, in the instruction's position, decodes to the instruction. -/
theorem decodeSym_encodeSym (i : Instr) : decodeSym i.position (encodeSym i) = .ok i := by
  cases i with
  | hdr3 h => exact Laws.EncodeDecode.hdr3 h
  | hdr2 h => exact Laws.EncodeDecode.hdr2 h
  | hdr1 h => exact Laws.EncodeDecode.hdr1 h
  | hdr0 h => exact Laws.EncodeDecode.hdr0 h
  | lit b => exact Laws.EncodeDecode.lit b
  | zrun len => exact Laws.EncodeDecode.zrun len
  | frun len => exact Laws.EncodeDecode.frun len
  | prun len => exact Laws.EncodeDecode.prun len
  | pat0 b => exact Laws.EncodeDecode.pat0 b
  | pat1 b => exact Laws.EncodeDecode.pat1 b
  | rsv100 x => exact Laws.EncodeDecode.rsv100 x
  | rsv200 x => exact Laws.EncodeDecode.rsv200 x
  | rsv300 x => exact Laws.EncodeDecode.rsv300 x

/-! ### Documents (R97, R98) -/

@[simp] theorem encodeDocument_cons (i : Instr) (is : List Instr) :
    encodeDocument (i :: is) = encodeSym i :: encodeDocument is := rfl

theorem wellPlaced_cons {p : Position} {i : Instr} {is : List Instr} :
    wellPlaced p (i :: is) = true ↔
      i.position = p ∧ i.wellFormed = true ∧ wellPlaced i.nextPosition is = true := by
  simp [wellPlaced, and_assoc]

theorem decodeFrom_cons_ok {p : Position} {w : Sym} {ws : List Sym} {i : Instr} {is : List Instr}
    (hw : decodeSym p w = .ok i) (hws : decodeFrom i.nextPosition ws = .ok is) :
    decodeFrom p (w :: ws) = .ok (i :: is) := by
  simp only [decodeFrom, hw, hws]

/-- The words of instructions that stand well from a position decode, from that position, to the instructions: each word
decodes where its instruction stands, and gives the position the rest stands well from. -/
theorem decodeFrom_encodeDocument {p : Position} {is : List Instr} (h : wellPlaced p is = true) :
    decodeFrom p (encodeDocument is) = .ok is := by
  induction is generalizing p with
  | nil => rfl
  | cons i is ih =>
    obtain ⟨rfl, -, hrest⟩ := wellPlaced_cons.1 h
    rw [encodeDocument_cons]
    exact decodeFrom_cons_ok (decodeSym_encodeSym i) (ih hrest)

/-! ### The mapping of symbols to code points (R102, R103) -/

/-- R102: a code point is the bits 1110 over its symbol. -/
theorem codePoint_eq_append (w : Sym) : codePoint w = (0b1110#4 ++ w : BitVec (4 + 12)) := by
  apply BitVec.eq_of_toNat_eq
  rw [codePoint_toNat, BitVec.toNat_append]
  exact Nat.shiftLeft_add_eq_or_of_lt w.isLt 0b1110

theorem codePoint_highBits (w : Sym) : (codePoint w).extractLsb' 12 4 = 0b1110#4 := by
  rw [codePoint_eq_append]
  exact BitVec.extractLsb'_append_eq_left

theorem codePoint_lowBits (w : Sym) : (codePoint w).extractLsb' 0 12 = w := by
  rw [codePoint_eq_append]
  exact BitVec.extractLsb'_append_eq_right

/-- R102: in the accepted range the offset from the base fits a symbol. -/
theorem toNat_sub_cpBase {c : CPIn} (h : inRange c = true) :
    ((c - Config.cpBase).setWidth 12 : Sym).toNat = c.toNat - 0xE000 := by
  obtain ⟨hlo, hhi⟩ := (inRange_iff c).1 h
  simp only [Config.cpBase, BitVec.toNat_setWidth, BitVec.toNat_sub, BitVec.toNat_ofNat]
  omega

theorem fromCodePoint_eq_ok_iff {c : CPIn} {w : Sym} : fromCodePoint c = .ok w ↔ c.toNat = 0xE000 + w.toNat := by
  have hw := w.isLt
  by_cases hc : inRange c = true
  · have hrange := (inRange_iff c).1 hc
    rw [fromCodePoint, if_pos hc, Except.ok.injEq, ← BitVec.toNat_inj, toNat_sub_cpBase hc]
    omega
  · rw [fromCodePoint, if_neg hc]
    rw [inRange_iff] at hc
    exact iff_of_false nofun (by omega)

/-- R103: FROMCP is defined exactly on the accepted range. -/
theorem exists_fromCodePoint_iff (c : CPIn) :
    (∃ w, fromCodePoint c = .ok w) ↔ 0xE000 ≤ c.toNat ∧ c.toNat ≤ 0xEFFF := by
  rw [← inRange_iff]
  unfold fromCodePoint
  split <;> simp [*]

namespace Machine

/-- R240: whatever an encode call answers is the code points of its header and body. -/
theorem encodeCall_eq_some {b : List Byte} {out : List CPOut} (h : encodeCall b = some out) :
    out = (encodedSymbols b).map codePoint := by
  unfold encodeCall at h
  split at h
  · exact (Option.some.inj h).symm
  · cases h

/-! ### The statements -/

/-- Settles O3: a document is its instructions standing well from document index 0. -/
theorem documentDecodesToItself : Obligations.DocumentDecodesToItself :=
  fun _ h => decodeFrom_encodeDocument h

/-- Settles O1: the decoder evaluates each of the words. -/
theorem writtenOutWordsDecode : Obligations.WrittenOutWordsDecode := by
  unfold Obligations.WrittenOutWordsDecode
  decide

/-- Settles O2: in a header position the word is the operand; a token's layouts and a pattern payload's give back the
fields they were read from. -/
theorem decodedWordEncodesBack : Obligations.DecodedWordEncodesBack := by
  intro p w i h
  cases p with
  | hdr3 | hdr2 | hdr1 | hdr0 => cases h; exact ⟨rfl, rfl⟩
  | token => cases h; exact ⟨decodeToken_position w, encodeSym_decodeToken w⟩
  | pat0 =>
    obtain ⟨b, hb, rfl⟩ := decodeSym_pat0_eq_ok_iff.1 h
    exact ⟨rfl, append_patternByte hb⟩
  | pat1 =>
    obtain ⟨b, hb, rfl⟩ := decodeSym_pat1_eq_ok_iff.1 h
    exact ⟨rfl, append_patternByte hb⟩

/-- Settles O4: by whether the position is a pattern's. -/
theorem onlyReservedPatternIsRefused : Obligations.OnlyReservedPatternIsRefused := by
  intro p w
  by_cases hp : p = .pat0 ∨ p = .pat1
  · rw [decodeSym_pattern_refuses_iff hp, patternByte_eq_none_iff]
    exact (and_iff_right hp).symm
  · obtain ⟨h0, h1⟩ := not_or.1 hp
    obtain ⟨i, hi⟩ := decodeSym_total h0 h1 w
    simp [hi, hp]

/-- Settles O5: the bits of a code point, FROMCP as an equation of numbers, and what an encode call answers. -/
theorem codePointMappingIsBijective : Obligations.CodePointMappingIsBijective :=
  ⟨fun w => ⟨codePoint_toNat w, codePoint_highBits w, codePoint_lowBits w⟩, exists_fromCodePoint_iff,
    fun _ _ => fromCodePoint_eq_ok_iff, fun _ _ => encodeCall_eq_some⟩

end Machine

end Sys2Proof

/-! SUPPORT. The Compressor (40_compressor.md). A count of a run is settled by one equivalence: `k` is at most the count
exactly when the unit stands `k` times end to end at the position. From it follow what a run taken covers, that it is
maximal, and, token by token, that the Decompressor gives the buffer back. -/

namespace Sys2Proof.Machine

/-! ### Repetitions at the front of a sequence (R10) -/

theorem rep_singleton_prefix_iff {α : Type} {v : α} {k : Nat} {l : List α} :
    rep [v] k <+: l ↔ ∀ j < k, l[j]? = some v := by
  induction k generalizing l with
  | zero => simp
  | succ k ih =>
    rw [Nat.forall_lt_succ_left]
    cases l with
    | nil => simp
    | cons x l => simp [List.cons_prefix_cons, ih, eq_comm]

theorem rep_pair_prefix_iff {α : Type} {p0 p1 : α} {k : Nat} {l : List α} :
    rep [p0, p1] k <+: l ↔ ∀ j < k, l[2 * j]? = some p0 ∧ l[2 * j + 1]? = some p1 := by
  induction k generalizing l with
  | zero => simp
  | succ k ih =>
    rw [Nat.forall_lt_succ_left]
    match l with
    | [] => simp
    | [x] => simp [List.cons_prefix_cons]
    | x :: y :: l => simp [List.cons_prefix_cons, ih, Nat.mul_add, eq_comm, and_assoc]

/-- One unit more at the front is that unit after the repetitions. -/
theorem rep_succ_prefix_append_iff {α : Type} {u l : List α} {k : Nat} :
    rep u (k + 1) <+: rep u k ++ l ↔ u <+: l := by
  rw [rep_add, List.prefix_append_right_inj]
  simp

/-! ### The counts measure repetitions (R132 to R134) -/

theorem le_leadingCount_iff {v : Byte} {l : List Byte} {k : Nat} : k ≤ leadingCount v l ↔ rep [v] k <+: l := by
  induction l generalizing k with
  | nil => cases k <;> simp [leadingCount]
  | cons x l ih =>
    cases k with
    | zero => simp
    | succ k =>
      by_cases hx : v = x
      · subst hx
        simp [leadingCount, List.cons_prefix_cons, ih]
      · simp [leadingCount, List.cons_prefix_cons, hx, Ne.symm hx]

theorem le_leadingPairs_iff {p0 p1 : Byte} {l : List Byte} {k : Nat} :
    k ≤ leadingPairs p0 p1 l ↔ rep [p0, p1] k <+: l := by
  induction k generalizing l with
  | zero => simp
  | succ k ih =>
    match l with
    | [] => simp [leadingPairs]
    | [x] => simp [leadingPairs, List.cons_prefix_cons]
    | x :: y :: l =>
      by_cases hxy : x = p0 ∧ y = p1
      · simp [leadingPairs, List.cons_prefix_cons, hxy, ih]
      · have hpair : ¬(p0 = x ∧ p1 = y) := fun h => hxy ⟨h.1.symm, h.2.symm⟩
        simp [leadingPairs, List.cons_prefix_cons, hxy, ← and_assoc, hpair]

theorem le_leadingCount_drop_iff {v : Byte} {b : List Byte} {i k : Nat} :
    k ≤ leadingCount v (b.drop i) ↔ ∀ j < k, b[i + j]? = some v := by
  simp [le_leadingCount_iff, rep_singleton_prefix_iff]

/-- A count that is not 0 stands on its own byte. -/
theorem getElem?_of_leadingCount_ne_zero {v : Byte} {b : List Byte} {i : Nat} (h : leadingCount v (b.drop i) ≠ 0) :
    b[i]? = some v :=
  le_leadingCount_drop_iff.1 (Nat.one_le_iff_ne_zero.2 h) 0 Nat.one_pos

/-- R132, R133, for either byte. -/
theorem leadingCount_drop_maximal (v : Byte) {b : List Byte} {i : Nat} (hi : i ≤ b.length) :
    i + leadingCount v (b.drop i) ≤ b.length ∧ (∀ j < leadingCount v (b.drop i), b[i + j]? = some v) ∧
      (∀ k, i + k ≤ b.length → (∀ j < k, b[i + j]? = some v) → k ≤ leadingCount v (b.drop i)) ∧
      (i = b.length ∨ b[i]? ≠ some v → leadingCount v (b.drop i) = 0) := by
  refine ⟨?_, le_leadingCount_drop_iff.1 le_rfl, fun k _ hk => le_leadingCount_drop_iff.2 hk, fun hend => ?_⟩
  · have hle := leadingCount_le v (b.drop i)
    rw [List.length_drop] at hle
    omega
  · by_contra hne
    have hv := getElem?_of_leadingCount_ne_zero hne
    rcases hend with rfl | hother
    · simp at hv
    · exact hother hv

/-- Settles O9: both counts are the count of one byte, and the byte at the position is not both. -/
theorem byteRunCountsAreMaximal : Obligations.ByteRunCountsAreMaximal := by
  intro b i hi
  refine ⟨leadingCount_drop_maximal 0x00#8 hi, leadingCount_drop_maximal 0xFF#8 hi, ?_⟩
  by_contra hboth
  obtain ⟨hz, hf⟩ := not_or.1 hboth
  have h0 : b[i]? = some 0x00#8 := getElem?_of_leadingCount_ne_zero hz
  have h1 : b[i]? = some 0xFF#8 := getElem?_of_leadingCount_ne_zero hf
  simp [h0] at h1

theorem pcount_of_drop_eq {b : List Byte} {i : Nat} {p0 p1 : Byte} {rest : List Byte}
    (h : b.drop i = p0 :: p1 :: rest) : pcount b i = leadingPairs p0 p1 (b.drop i) := by
  simp [pcount, h]

theorem pcount_eq_zero {b : List Byte} {i : Nat} (h : b.length < i + 2) : pcount b i = 0 := by
  have := pcount_le b i
  omega

theorem drop_eq_cons_cons {b : List Byte} {i : Nat} (h : i + 1 < b.length) :
    b.drop i = b[i] :: b[i + 1] :: b.drop (i + 2) := by
  rw [List.drop_eq_getElem_cons (by omega), List.drop_eq_getElem_cons h]

/-- R134: the pairs counted are those of the two bytes at the position. -/
theorem le_pcount_iff {b : List Byte} {i k : Nat} (h : i + 2 ≤ b.length) :
    k ≤ pcount b i ↔ ∀ j < k, b[i + 2 * j]? = b[i]? ∧ b[i + 2 * j + 1]? = b[i + 1]? := by
  rw [pcount_of_drop_eq (drop_eq_cons_cons h), le_leadingPairs_iff, rep_pair_prefix_iff]
  simp [List.getElem?_eq_getElem (show i < b.length by omega), List.getElem?_eq_getElem (show i + 1 < b.length from h),
    Nat.add_assoc]

/-- Settles O10: by whether two bytes remain. -/
theorem pairCountIsMaximal : Obligations.PairCountIsMaximal := by
  intro b i hi
  have hfit := pcount_le b i
  by_cases h2 : i + 2 ≤ b.length
  · refine ⟨⟨by omega, (le_pcount_iff h2).1 le_rfl⟩, fun k _ hk => (le_pcount_iff h2).2 hk, by omega, fun _ => ?_⟩
    refine (le_pcount_iff h2).2 fun j hj => ?_
    rw [Nat.lt_one_iff.1 hj]
    exact ⟨rfl, rfl⟩
  · have h0 : pcount b i = 0 := pcount_eq_zero (Nat.lt_of_not_le h2)
    rw [h0]
    exact ⟨⟨hi, fun _ hj => absurd hj (Nat.not_lt_zero _)⟩, fun k hk _ => by omega, fun _ => rfl, fun h => absurd h h2⟩

/-! ### The choice at a position (R135 to R139) -/

/-- Settles O11: the bytes from the position on are the byte there and those after it. -/
theorem selectionFollowsPriority : Obligations.SelectionFollowsPriority := by
  intro b i h
  have hhead : (b.drop (i + 1)).headD 0 = b.getD (i + 1) 0 := by
    simp [List.headD_eq_head?_getD, List.head?_drop, List.getD_eq_getElem?_getD]
  unfold nextToken
  rw [List.drop_eq_getElem_cons h, ← hhead]
  simp only [apply_ite some]
  rfl

theorem nextToken_eq_none_iff {b : List Byte} {i : Nat} : nextToken b i = none ↔ b.length ≤ i := by
  by_cases hi : i < b.length
  · simp [selectionFollowsPriority b i hi, hi]
  · have hle := Nat.le_of_not_lt hi
    simp [nextToken, List.drop_eq_nil_of_le hle, hle]

theorem lt_length_of_nextToken {b : List Byte} {i : Nat} {t : Token} (h : nextToken b i = some t) : i < b.length := by
  by_contra hge
  simp [nextToken_eq_none_iff.2 (Nat.le_of_not_lt hge)] at h

/-- A run is the one of its count; a PatternRun is taken only where neither byte's run was. -/
theorem nextToken_eq_run {b : List Byte} {i : Nat} {k : Kind} {len : Nat} (h : nextToken b i = some (.run k len)) :
    (k = .zeroRun ∧ len = zcount b i) ∨ (k = .ffRun ∧ len = fcount b i) ∨
      (∃ p0 p1, k = .patternRun p0 p1 ∧ len = leadingPairs p0 p1 (b.drop i) ∧ zcount b i < 4 ∧ fcount b i < 4) := by
  have hi := lt_length_of_nextToken h
  rw [selectionFollowsPriority b i hi] at h
  split_ifs at h with hz hf hp <;> cases h
  · exact .inl ⟨rfl, rfl⟩
  · exact .inr (.inl ⟨rfl, rfl⟩)
  · have h2 : i + 1 < b.length := by
      have := pcount_le b i
      omega
    have hpair := drop_eq_cons_cons h2
    refine .inr (.inr ⟨_, _, rfl, ?_, Nat.lt_of_not_le hz, Nat.lt_of_not_le hf⟩)
    rw [List.getD_eq_getElem _ _ h2, pcount_of_drop_eq hpair]

theorem nextToken_eq_literal {b : List Byte} {i : Nat} {x : Byte} (h : nextToken b i = some (.literal x)) :
    b.drop i = x :: b.drop (i + 1) := by
  have hi := lt_length_of_nextToken h
  rw [selectionFollowsPriority b i hi] at h
  split_ifs at h <;> cases h
  exact List.drop_eq_getElem_cons hi

/-- A run's length is the greatest number of times its unit stands end to end at the position. -/
theorem le_run_length_iff {b : List Byte} {i : Nat} {k : Kind} {len : Nat} (h : nextToken b i = some (.run k len))
    (m : Nat) : m ≤ len ↔ rep k.unit m <+: b.drop i := by
  rcases nextToken_eq_run h with ⟨rfl, rfl⟩ | ⟨rfl, rfl⟩ | ⟨p0, p1, rfl, rfl, -, -⟩
  · exact le_leadingCount_iff
  · exact le_leadingCount_iff
  · exact le_leadingPairs_iff

/-- R138: where the pair of one byte twice stands four times, so does that byte: two such pairs are four bytes. -/
theorem four_le_leadingCount_of_leadingPairs {v : Byte} {l : List Byte} (h : 4 ≤ leadingPairs v v l) :
    4 ≤ leadingCount v l :=
  le_leadingCount_iff.2 (le_leadingPairs_iff.1 (le_trans (by omega : 2 ≤ 4) h))

/-- R138: the pairs (0x00, 0x00) and (0xFF, 0xFF) are taken by C.ZERO and C.FF. -/
theorem nextToken_pair_ne {b : List Byte} {i : Nat} {k : Kind} {len : Nat} (h : nextToken b i = some (.run k len)) :
    k ≠ .patternRun 0x00#8 0x00#8 ∧ k ≠ .patternRun 0xFF#8 0xFF#8 := by
  have hlen := nextToken_run_length h
  rcases nextToken_eq_run h with ⟨rfl, -⟩ | ⟨rfl, -⟩ | ⟨p0, p1, rfl, rfl, hz, hf⟩
  · exact ⟨nofun, nofun⟩
  · exact ⟨nofun, nofun⟩
  · constructor <;> rintro ⟨⟩
    · exact absurd (four_le_leadingCount_of_leadingPairs hlen) (Nat.not_le_of_lt hz)
    · exact absurd (four_le_leadingCount_of_leadingPairs hlen) (Nat.not_le_of_lt hf)

/-! ### What a token covers (R140, R167) -/

theorem expand_length (t : Token) : t.expand.length = t.byteLen := by
  cases t with
  | literal x => rfl
  | run k len => cases k <;> simp [Token.expand, Token.byteLen, Kind.unit, rep_length, Nat.mul_comm]

theorem decompress_length (ts : List Token) : (decompress ts).length = (ts.map Token.byteLen).sum := by
  simp [decompress, List.length_flatMap, expand_length]

theorem run_length_le_byteLen (k : Kind) (len : Nat) : len ≤ (Token.run k len).byteLen := by
  cases k <;> simp only [Token.byteLen] <;> omega

/-- R140: the cursor goes on by a byte at least. -/
theorem nextToken_byteLen_pos {b : List Byte} {i : Nat} {t : Token} (h : nextToken b i = some t) : 1 ≤ t.byteLen := by
  cases t with
  | literal x => exact le_rfl
  | run k len =>
    have := nextToken_run_length h
    have := run_length_le_byteLen k len
    omega

/-- A token taken stands for the bytes from the position to the next. -/
theorem drop_eq_expand_append {b : List Byte} {i : Nat} {t : Token} (h : nextToken b i = some t) :
    b.drop i = t.expand ++ b.drop (i + t.byteLen) := by
  cases t with
  | literal x => exact nextToken_eq_literal h
  | run k len =>
    have hprefix : (Token.run k len).expand <+: b.drop i := (le_run_length_iff h len).1 le_rfl
    have happ := List.prefix_iff_eq_append.1 hprefix
    rw [expand_length, List.drop_drop] at happ
    exact happ.symm

/-- R143 (4) at a position: the bytes after a run do not begin with its unit. -/
theorem not_unit_prefix_drop {b : List Byte} {i : Nat} {k : Kind} {len : Nat}
    (h : nextToken b i = some (.run k len)) : ¬k.unit <+: b.drop (i + (Token.run k len).byteLen) := by
  have hmore := (le_run_length_iff h (len + 1)).not.1 (Nat.not_succ_le_self len)
  rw [drop_eq_expand_append h] at hmore
  exact rep_succ_prefix_append_iff.not.1 hmore

/-! ### The whole function (R140, R141) -/

/-- The tokens from a position on, given fuel enough, stand for the bytes from there on. -/
theorem decompress_compressFrom {b : List Byte} {fuel i : Nat} (h : b.length ≤ i + fuel) :
    decompress (compressFrom b fuel i) = b.drop i := by
  induction fuel generalizing i with
  | zero => simpa [compressFrom] using h
  | succ fuel ih =>
    unfold compressFrom
    split
    next hnone =>
      rw [decompress_nil, List.drop_eq_nil_of_le (nextToken_eq_none_iff.1 hnone)]
    next t ht =>
      have hpos := nextToken_byteLen_pos ht
      rw [decompress_cons, ih (by omega), ← drop_eq_expand_append ht]

/-- Each token is the choice at the position its forerunners' bytes reach. -/
theorem nextToken_of_compressFrom_eq {b : List Byte} {fuel i : Nat} {before after : List Token} {t : Token}
    (h : compressFrom b fuel i = before ++ t :: after) :
    nextToken b (i + (decompress before).length) = some t := by
  induction fuel generalizing i before with
  | zero => simp [compressFrom] at h
  | succ fuel ih =>
    unfold compressFrom at h
    split at h
    next => simp at h
    next u hu =>
      cases before with
      | nil =>
        cases h
        simpa using hu
      | cons v before =>
        obtain ⟨rfl, hrest⟩ := List.cons.inj h
        simpa [expand_length, Nat.add_assoc] using ih hrest

theorem decompress_compress (b : List Byte) : decompress (compress b) = b :=
  decompress_compressFrom (Nat.le_add_left _ _)

/-- Each token is the choice at some position, and the tokens after it stand for the bytes after those it covers. -/
theorem compress_eq_append_cons {b : List Byte} {before after : List Token} {t : Token}
    (h : compress b = before ++ t :: after) :
    ∃ i, nextToken b i = some t ∧ decompress after = b.drop (i + t.byteLen) := by
  refine ⟨(decompress before).length, by simpa using nextToken_of_compressFrom_eq h, ?_⟩
  have hb : b = decompress before ++ (t.expand ++ decompress after) := by
    rw [← decompress_cons, ← decompress_append, ← h, decompress_compress]
  rw [hb, ← expand_length, ← List.length_append, ← List.append_assoc, List.drop_left]

theorem nextToken_of_mem_compress {b : List Byte} {t : Token} (h : t ∈ compress b) : ∃ i, nextToken b i = some t := by
  obtain ⟨before, after, heq⟩ := List.append_of_mem h
  obtain ⟨i, hi, -⟩ := compress_eq_append_cons heq
  exact ⟨i, hi⟩

theorem compress_run_length {b : List Byte} {k : Kind} {len : Nat} (h : .run k len ∈ compress b) : 4 ≤ len := by
  obtain ⟨i, hi⟩ := nextToken_of_mem_compress h
  exact nextToken_run_length hi

theorem compress_byteLen_pos {b : List Byte} {t : Token} (h : t ∈ compress b) : 1 ≤ t.byteLen := by
  obtain ⟨i, hi⟩ := nextToken_of_mem_compress h
  exact nextToken_byteLen_pos hi

theorem compress_byteLen_sum (b : List Byte) : ((compress b).map Token.byteLen).sum = b.length := by
  rw [← decompress_length, decompress_compress]

/-- Of the tokens emitted, the literals are those of one byte. -/
theorem compress_byteLen_eq_one_iff {b : List Byte} {t : Token} (h : t ∈ compress b) :
    t.byteLen = 1 ↔ ∃ x, t = .literal x := by
  cases t with
  | literal x => exact ⟨fun _ => ⟨x, rfl⟩, fun _ => rfl⟩
  | run k len =>
    have := compress_run_length h
    have := run_length_le_byteLen k len
    exact iff_of_false (by omega) nofun

theorem length_le_byteLen_sum {ts : List Token} (h : ∀ t ∈ ts, 1 ≤ t.byteLen) :
    ts.length ≤ (ts.map Token.byteLen).sum := by
  simpa using List.length_le_sum_of_one_le (ts.map Token.byteLen) (by simpa using h)

theorem length_eq_byteLen_sum_iff {ts : List Token} (h : ∀ t ∈ ts, 1 ≤ t.byteLen) :
    ts.length = (ts.map Token.byteLen).sum ↔ ∀ t ∈ ts, t.byteLen = 1 := by
  induction ts with
  | nil => simp
  | cons t ts ih =>
    obtain ⟨ht, hts⟩ := List.forall_mem_cons.1 h
    have hle := length_le_byteLen_sum hts
    rw [List.forall_mem_cons, ← ih hts, List.map_cons, List.sum_cons, List.length_cons]
    omega

/-- Settles O12: from the round trip, and from each token's being the choice at a position. -/
theorem compressionIsLossless : Obligations.CompressionIsLossless := by
  intro b
  have hpos : ∀ t ∈ compress b, 1 ≤ t.byteLen := fun _ => compress_byteLen_pos
  have hsum := compress_byteLen_sum b
  refine ⟨decompress_compress b, fun _ _ => compress_run_length, hsum ▸ length_le_byteLen_sum hpos, ?_, hsum⟩
  calc (compress b).length = b.length
    _ ↔ ∀ t ∈ compress b, t.byteLen = 1 := by rw [← length_eq_byteLen_sum_iff hpos, hsum]
    _ ↔ ∀ t ∈ compress b, ∃ x, t = .literal x := forall₂_congr fun _ => compress_byteLen_eq_one_iff

/-- Settles O13: at the run's position. -/
theorem emittedRunsAreMaximal : Obligations.EmittedRunsAreMaximal := by
  intro b before after k len h
  obtain ⟨i, hi, hafter⟩ := compress_eq_append_cons h
  refine ⟨fun htake => not_unit_prefix_drop hi ?_, nextToken_pair_ne hi⟩
  rw [← hafter]
  exact List.prefix_iff_eq_take.2 htake.symm

/-! ### The cost of a run (R144, R188) -/

/-- R182 to R185: the symbols of one packed piece of a run. -/
def Kind.symbols : Kind → Nat
  | .zeroRun => 1
  | .ffRun => 1
  | .patternRun _ _ => 3

theorem length_pack_run (k : Kind) (len : Nat) : (Token.run k len).pack.length = k.symbols := by
  cases k <;> rfl

theorem cost_run (k : Kind) (len : Nat) : (Token.run k len).cost = k.symbols * max 1 (pieces len) := by
  cases k <;> simp [Token.cost, Kind.symbols]

theorem pieces_of_pos {len : Nat} (h : 1 ≤ len) : max 1 (pieces len) = (len + 1022) / 1023 := by
  unfold pieces
  omega

/-- R181: SPLIT cuts a run into runs of its kind. -/
theorem eq_run_of_mem_split {k : Kind} {len : Nat} {t : Token} (h : t ∈ (Token.run k len).split) :
    ∃ m, t = .run k m := by
  cases len with
  | zero => exact ⟨0, by simpa [Token.split] using h⟩
  | succ n =>
    rcases List.mem_append.1 h with hfull | hlast
    · exact ⟨_, List.eq_of_mem_replicate hfull⟩
    · split_ifs at hlast
      · exact ⟨_, List.mem_singleton.1 hlast⟩
      · cases hlast

/-- R181: the number of those runs. -/
theorem length_split_run (k : Kind) (len : Nat) : (Token.run k len).split.length = max 1 (pieces len) := by
  cases len with
  | zero => rfl
  | succ n =>
    rw [pieces_of_pos (Nat.succ_pos n), Token.split, List.length_append, List.length_replicate,
      apply_ite List.length, List.length_singleton, List.length_nil]
    split_ifs with hrem <;> simp only [Config.maxLen] at hrem ⊢ <;> omega

/-- R188: what a token's pieces pack to is its cost. -/
theorem length_flatMap_pack_split (t : Token) : (t.split.flatMap Token.pack).length = t.cost := by
  cases t with
  | literal x => rfl
  | run k len =>
    have hpiece : ∀ u ∈ (Token.run k len).split, u.pack.length = k.symbols := by
      intro u hu
      obtain ⟨m, rfl⟩ := eq_run_of_mem_split hu
      exact length_pack_run k m
    rw [List.length_flatMap, List.map_congr_left hpiece, List.map_const', List.sum_replicate, length_split_run,
      cost_run, smul_eq_mul, Nat.mul_comm]

/-- R188: the packed length is the sum of the costs. -/
theorem length_pack (ts : List Token) : (pack ts).length = (ts.map Token.cost).sum := by
  rw [pack, split, List.flatMap_assoc, List.length_flatMap]
  simp only [length_flatMap_pack_split]

theorem length_pack_literals (b : List Byte) : (pack (b.map .literal)).length = b.length := by
  simp [length_pack, Function.comp_def, Token.cost]

/-- R144: a run of two units or more costs less than a symbol a byte. -/
theorem run_cost_lt_byteLen (k : Kind) {len : Nat} (h : 2 ≤ len) :
    (Token.run k len).cost < (Token.run k len).byteLen := by
  rw [cost_run, pieces_of_pos (by omega)]
  cases k <;> simp only [Kind.symbols, Token.byteLen] <;> omega

/-- Settles O17: by the cost of a run of two units or more, which every run emitted is. -/
theorem overheadInvariantHolds : Obligations.OverheadInvariantHolds := by
  refine ⟨fun _ => rfl, fun len h => ?_, fun p0 p1 r h => ?_, fun b k len h => ?_⟩
  · have hpieces := pieces_of_pos (le_trans one_le_two h)
    exact ⟨hpieces, hpieces, by omega⟩
  · have hpieces := pieces_of_pos (le_trans one_le_two h)
    exact ⟨congrArg (3 * ·) hpieces, by omega⟩
  · have hlen := compress_run_length h
    rw [length_pack_literals, expand_length, length_pack, List.map_singleton, List.sum_singleton]
    exact run_cost_lt_byteLen k (by omega)

end Sys2Proof.Machine

/-! SUPPORT. The Decompressor (41_decompressor.md). Appends are counted by iterating `DecRegs.count`, whose closed form
is proved once. One repetition of a run's unit is one or two steps D.EXP; a run is settled for the three kinds at once,
by induction on `RLEN`. -/

namespace Sys2Proof.Machine

/-! ### Counting `n` bytes (R170) -/

/-- R170: `OCNT` counts modulo 2^48, and `OVF` is set once the true count has left its range. -/
theorem DecRegs.count_iterate (d : DecRegs) (n : Nat) :
    DecRegs.count^[n] d = { d with
      ocnt := BitVec.ofNat 48 (d.ocnt.toNat + n)
      ovf := d.ovf || decide (2 ^ 48 ≤ d.ocnt.toNat + n) } := by
  induction n with
  | zero =>
    have hfit : decide (2 ^ 48 ≤ d.ocnt.toNat) = false := decide_eq_false (Nat.not_le_of_lt d.ocnt.isLt)
    simp only [Function.iterate_zero_apply, Nat.add_zero, hfit, Bool.or_false, BitVec.ofNat_toNat, BitVec.setWidth_eq]
  | succ n ih =>
    have hocnt : BitVec.ofNat 48 (d.ocnt.toNat + n) + 1 = BitVec.ofNat 48 (d.ocnt.toNat + (n + 1)) := by
      rw [← Nat.add_assoc, BitVec.ofNat_add _ 1]; rfl
    have hlast : BitVec.ofNat 48 (d.ocnt.toNat + n) = 0xFFFFFFFFFFFF#48 ↔
        (d.ocnt.toNat + n) % 2 ^ 48 = 2 ^ 48 - 1 := by
      rw [← BitVec.toNat_inj]; simp
    have hovf : 2 ^ 48 ≤ d.ocnt.toNat + n ∨ (d.ocnt.toNat + n) % 2 ^ 48 = 2 ^ 48 - 1 ↔
        2 ^ 48 ≤ d.ocnt.toNat + (n + 1) := by omega
    rw [Function.iterate_succ_apply', ih]
    simp only [DecRegs.count, hocnt, Bool.or_assoc, ← Bool.decide_or, hlast, hovf]

/-- Settles O19: by the closed form of the count. -/
theorem byteCountIsExactBelowOverflow : Obligations.ByteCountIsExactBelowOverflow := by
  intro d n hocnt hovf
  have hzero : d.ocnt.toNat + n = n := by simp [hocnt]
  rw [DecRegs.count_iterate, hzero, hovf, Bool.false_or]
  refine ⟨?_, fun hn => Nat.mod_eq_of_lt (by omega), by rw [← hovf]⟩
  rw [decide_eq_false_iff_not]
  omega

/-! ### What tokens stand for (R167) -/

/-- Settles O18: R167's two laws are those of `expand` and `decompress`. -/
theorem byteLengthIsExpandedLength : Obligations.ByteLengthIsExpandedLength :=
  ⟨fun _ => rfl, fun _ => ⟨rfl, rfl⟩, fun _ _ _ => rfl, expand_length, decompress_length⟩

/-! ### Runs of the machine -/

@[simp] theorem runFor_zero (s : State) : runFor 0 s = .next s := rfl

theorem runFor_succ (k : Nat) (s : State) : runFor (k + 1) s = andThen (step s) (runFor k) := by
  have hcore : core.step s = step s := rfl
  simp only [runFor, Host.Core.run]
  rw [hcore]
  cases step s <;> rfl

@[simp] theorem runFor_one (s : State) : runFor 1 s = step s := by
  rw [runFor_succ]
  cases step s <;> rfl

theorem runFor_add (j k : Nat) (s : State) : runFor (j + k) s = andThen (runFor j s) (runFor k) := by
  induction j generalizing s with
  | zero => rw [Nat.zero_add, runFor_zero, andThen_next]
  | succ j ih =>
    rw [Nat.succ_add, runFor_succ, runFor_succ]
    cases step s with
    | next t => exact ih t
    | fault r => rfl
    | refused r => rfl

/-- While DEC runs, the machine's step is DEC's. -/
theorem DecRuns.step_eq {s : State} (h : DecRuns s) : step s = decStep s := by
  simp [step, turn, h.pending, engineTurn, h.busy, h.mode]

/-- R258, D.TOK: the step is the instruction decoded at `SCUR`. -/
theorem DecRuns.step_token {s : State} {w : Sym} {i : Instr} (h : DecRuns s) (hp : s.dec.phase = .unpack)
    (hlt : s.dec.scur < s.dec.m) (hw : SymbolAt s s.dec.scur.toNat w) (hi : decodeSym .token w = .ok i) :
    step s = exec i s := by
  obtain ⟨c, hread, hc⟩ := hw
  simp [h.step_eq, decStep, hp, hlt, decTok, withSymbol_ok _ hread hc, hi]

/-- R195: a PRUN whose two operand symbols are legal loads the pair. -/
theorem exec_prun_ok {s : State} {len : RunLen} {a c : Sym} {p0 p1 : Byte}
    (hm : s.dec.scur.toNat + 2 < s.dec.m.toNat)
    (ha : SymbolAt s (s.dec.scur.toNat + 1) a) (hp0 : patternByte a = some p0)
    (hc : SymbolAt s (s.dec.scur.toNat + 2) c) (hp1 : patternByte c = some p1) :
    exec (.prun len) s = .next (s.setDec (s.dec.loadPattern len p0 p1)) := by
  obtain ⟨ca, hra, hca⟩ := ha
  obtain ⟨cc, hrc, hcc⟩ := hc
  change withPattern s _ _ = _
  rw [withPattern_ok _ hm hra hca hrc hcc, hp0, hp1]
  rfl

/-! ### The steps D.EXP (R163 to R165, R258) -/

/-- The first byte of a pair appended and counted, the second one next. -/
def State.emitFirst (s : State) : State := (s.emitByte s.dec.p0).setDec { s.dec.count with psub := 1 }

theorem DecRegs.count_setPsub (d : DecRegs) (b : BitVec 1) :
    DecRegs.count { d with psub := b } = { d.count with psub := b } := rfl

theorem DecRuns.emitFirst {s : State} (h : DecRuns s) : DecRuns s.emitFirst :=
  ⟨h.pending, h.busy, h.mode⟩

section
variable {s : State} (h : DecRuns s) (hp : s.dec.phase = .expand)
include h hp

theorem DecRuns.step_expand : step s = decExp s := by
  simp [h.step_eq, decStep, hp]

theorem DecRuns.step_runEnd (hr : s.dec.rlen = 0) : step s = .next (s.setDec { s.dec with phase := .unpack }) := by
  rw [h.step_expand hp, decExp, if_pos hr]

theorem DecRuns.step_zeroByte (hr : s.dec.rlen ≠ 0) (hk : s.dec.rkind = 1) :
    step s = .next ((s.emitByte 0x00#8).setDec { s.dec.count with rlen := s.dec.rlen - 1 }) := by
  rw [h.step_expand hp, decExp, if_neg hr, if_pos hk]
  rfl

theorem DecRuns.step_ffByte (hr : s.dec.rlen ≠ 0) (hk : s.dec.rkind = 2) :
    step s = .next ((s.emitByte 0xFF#8).setDec { s.dec.count with rlen := s.dec.rlen - 1 }) := by
  rw [h.step_expand hp, decExp, if_neg hr, if_neg (by simp [hk]), if_pos hk]
  rfl

theorem DecRuns.step_firstByte (hr : s.dec.rlen ≠ 0) (hk : s.dec.rkind = 3) (hsub : s.dec.psub = 0) :
    step s = .next s.emitFirst := by
  rw [h.step_expand hp, decExp, if_neg hr, if_neg (by simp [hk]), if_neg (by simp [hk]), if_pos hsub]
  rfl

theorem DecRuns.step_secondByte (hr : s.dec.rlen ≠ 0) (hk : s.dec.rkind = 3) (hsub : s.dec.psub ≠ 0) :
    step s = .next ((s.emitByte s.dec.p1).setDec { s.dec.count with psub := 0, rlen := s.dec.rlen - 1 }) := by
  rw [h.step_expand hp, decExp, if_neg hr, if_neg (by simp [hk]), if_neg (by simp [hk]), if_neg hsub]
  rfl

end

/-! ### Expanding a run -/

/-- DEC's run registers hold a run of kind `k`, no unit of it begun. -/
structure DecRegs.HoldsRun (d : DecRegs) (k : Kind) : Prop where
  kind : d.rkind = k.tag
  pair : ∀ p0 p1, k = .patternRun p0 p1 → d.p0 = p0 ∧ d.p1 = p1 ∧ d.psub = 0

/-- The bytes `bs` of the current run appended and counted, `left` units of the run not yet expanded. -/
def State.emitRun (s : State) (bs : List Byte) (left : RunLen) : State :=
  { s with
    mem := { s.mem with ob := s.mem.ob ++ bs }
    dec := { DecRegs.count^[bs.length] s.dec with rlen := left } }

theorem DecRegs.count_iterate_setRlen (d : DecRegs) (left : RunLen) (n : Nat) :
    DecRegs.count^[n] { d with rlen := left } = { DecRegs.count^[n] d with rlen := left } := by
  simp only [DecRegs.count_iterate]

theorem State.emitRun_emitRun (s : State) (bs cs : List Byte) (l m : RunLen) :
    (s.emitRun bs l).emitRun cs m = s.emitRun (bs ++ cs) m := by
  simp [State.emitRun, DecRegs.count_iterate_setRlen, ← Function.iterate_add_apply, Nat.add_comm]

theorem DecRuns.emitRun {s : State} (h : DecRuns s) (bs : List Byte) (left : RunLen) : DecRuns (s.emitRun bs left) :=
  ⟨h.pending, h.busy, h.mode⟩

@[simp] theorem State.emitRun_rlen (s : State) (bs : List Byte) (left : RunLen) :
    (s.emitRun bs left).dec.rlen = left := rfl

@[simp] theorem State.emitRun_phase (s : State) (bs : List Byte) (left : RunLen) :
    (s.emitRun bs left).dec.phase = s.dec.phase := by
  simp [State.emitRun, DecRegs.count_iterate]

theorem DecRegs.HoldsRun.emitRun {s : State} {k : Kind} (h : s.dec.HoldsRun k) (bs : List Byte) (left : RunLen) :
    (s.emitRun bs left).dec.HoldsRun k := by
  simp only [State.emitRun, DecRegs.count_iterate]
  exact ⟨h.kind, h.pair⟩

/-- The two steps of a pair are the appending of the pair. -/
theorem State.emitFirst_emitSecond (s : State) (left : RunLen) (hsub : s.dec.psub = 0) :
    (s.emitFirst.emitByte s.dec.p1).setDec { s.emitFirst.dec.count with psub := 0, rlen := left } =
      s.emitRun [s.dec.p0, s.dec.p1] left := by
  simp only [State.emitFirst, State.emitByte, State.appendOB, State.setDec, DecRegs.count_setPsub, State.emitRun,
    List.append_assoc, List.cons_append, List.nil_append, List.length_cons, List.length_nil,
    Function.iterate_succ_apply, Function.iterate_zero_apply, DecRegs.count_psub, hsub]

/-- R163 to R165: one unit of the run, in as many steps D.EXP as it has bytes. -/
theorem runFor_unit {s : State} {k : Kind} (h : DecRuns s) (hp : s.dec.phase = .expand) (hk : s.dec.HoldsRun k)
    (hr : s.dec.rlen ≠ 0) : runFor k.unit.length s = .next (s.emitRun k.unit (s.dec.rlen - 1)) := by
  cases k with
  | zeroRun => exact (runFor_one s).trans (h.step_zeroByte hp hr hk.kind)
  | ffRun => exact (runFor_one s).trans (h.step_ffByte hp hr hk.kind)
  | patternRun p0 p1 =>
    obtain ⟨rfl, rfl, hsub⟩ := hk.pair p0 p1 rfl
    have hfirst : step s = .next s.emitFirst := h.step_firstByte hp hr hk.kind hsub
    have hsecond := h.emitFirst.step_secondByte hp hr hk.kind (by simp [State.emitFirst])
    calc runFor 2 s = step s.emitFirst := by rw [runFor_succ, hfirst, andThen_next, runFor_one]
      _ = _ := hsecond
      _ = .next (s.emitRun [s.dec.p0, s.dec.p1] (s.dec.rlen - 1)) := congrArg _ (s.emitFirst_emitSecond _ hsub)

/-- R163 to R165: the units not yet expanded, one after another. -/
theorem runFor_units {s : State} {k : Kind} {n : Nat} (h : DecRuns s) (hp : s.dec.phase = .expand)
    (hk : s.dec.HoldsRun k) (hn : s.dec.rlen.toNat = n) :
    runFor (n * k.unit.length) s = .next (s.emitRun (rep k.unit n) 0) := by
  induction n generalizing s with
  | zero =>
    have hrlen : s.dec.rlen = 0 := BitVec.eq_of_toNat_eq hn
    simp [State.emitRun, ← hrlen]
  | succ n ih =>
    have hr : s.dec.rlen ≠ 0 := by rintro hzero; simp [hzero] at hn
    have hleft : (s.emitRun k.unit (s.dec.rlen - 1)).dec.rlen.toNat = n := by
      rw [State.emitRun_rlen]
      bv_omega
    rw [Nat.succ_mul, Nat.add_comm, runFor_add, runFor_unit h hp hk hr, andThen_next,
      ih (h.emitRun _ _) (by simpa using hp) (hk.emitRun _ _) hleft, State.emitRun_emitRun, rep_succ]

/-- R258: D.EXP to the end of the run, and the step back to UNPACK. -/
theorem runFor_expand {s : State} {k : Kind} (h : DecRuns s) (hp : s.dec.phase = .expand) (hk : s.dec.HoldsRun k) :
    runFor (s.dec.rlen.toNat * k.unit.length + 1) s =
      .next { s with
        mem := { s.mem with ob := s.mem.ob ++ rep k.unit s.dec.rlen.toNat }
        dec := { s.dec with
          rlen := 0, phase := .unpack
          ocnt := BitVec.ofNat 48 (s.dec.ocnt.toNat + s.dec.rlen.toNat * k.unit.length)
          ovf := s.dec.ovf || decide (2 ^ 48 ≤ s.dec.ocnt.toNat + s.dec.rlen.toNat * k.unit.length) } } := by
  rw [runFor_add, runFor_units h hp hk rfl, andThen_next, runFor_succ,
    (h.emitRun _ _).step_runEnd (by simpa using hp) rfl, andThen_next, runFor_zero]
  simp only [State.emitRun, State.setDec, DecRegs.count_iterate, rep_length]

/-- Settles O38: the run is loaded, and expanded as a run of its kind. -/
theorem byteRunsExpand : Obligations.ByteRunsExpand := by
  intro s w len i v kind hi h hp hlt hw hdec
  obtain ⟨k, hunit, htag, hpair, hexec⟩ : ∃ k : Kind, k.unit = [v] ∧ kind = k.tag ∧
      (∀ p0 p1, k ≠ .patternRun p0 p1) ∧
      exec i s = .next (s.setDec { s.dec.loadRun k.tag len with phase := .expand }) := by
    rcases hi with ⟨rfl, rfl, rfl⟩ | ⟨rfl, rfl, rfl⟩
    · exact ⟨.zeroRun, rfl, rfl, nofun, rfl⟩
    · exact ⟨.ffRun, rfl, rfl, nofun, rfl⟩
  have hrun := runFor_expand (s := s.setDec { s.dec.loadRun k.tag len with phase := .expand }) (k := k)
    ⟨h.pending, h.busy, h.mode⟩ rfl ⟨rfl, fun p0 p1 hk => absurd hk (hpair p0 p1)⟩
  rw [runFor_succ, h.step_token hp hlt hw hdec, hexec, andThen_next, htag, ← hunit]
  simpa [hunit, hp] using hrun

/-- Settles O39: the pair is loaded, and expanded as a run of the pair. -/
theorem patternRunsExpand : Obligations.PatternRunsExpand := by
  intro s w a c len p0 p1 h hp hm hw hdec ha hdec0 hc hdec1
  obtain ⟨b0, hp0, ⟨⟩⟩ := decodeSym_pat0_eq_ok_iff.1 hdec0
  obtain ⟨b1, hp1, ⟨⟩⟩ := decodeSym_pat1_eq_ok_iff.1 hdec1
  have hlt : s.dec.scur < s.dec.m := by bv_omega
  have hrun := runFor_expand (s := s.setDec (s.dec.loadPattern len p0 p1)) (k := .patternRun p0 p1)
    ⟨h.pending, h.busy, h.mode⟩ rfl ⟨rfl, by rintro _ _ ⟨⟩; exact ⟨rfl, rfl, rfl⟩⟩
  rw [runFor_succ, h.step_token hp hlt hw hdec, exec_prun_ok hm ha hp0 hc hp1, andThen_next]
  simpa [DecRegs.loadPattern, Kind.unit, Nat.mul_comm, hp, BitVec.add_assoc] using hrun

end Sys2Proof.Machine

/-! SUPPORT. The Packer and the Unpacker (42_packer_unpacker.md). A token fits a packed token when its length fits the
length field. SPLIT gives tokens that fit and leaves those as they are; a body that is not refused begins with the
symbols of a token that fits, and the Unpacker reads that token off. The meanings of the body's instructions follow. -/

namespace Sys2Proof.Machine

/-! ### SPLIT (R181) -/

/-- R94, R181: a token that packs in one piece: a literal, or a run of at most 1023 units. -/
def Token.Fits (t : Token) : Prop := ∀ k len, t = .run k len → len ≤ 1023

theorem Token.fits_literal (b : Byte) : (Token.literal b).Fits := nofun

theorem Token.fits_run_iff {k : Kind} {len : Nat} : (Token.run k len).Fits ↔ len ≤ 1023 :=
  ⟨fun h => h k len rfl, fun h _ _ heq => by cases heq; exact h⟩

theorem forall_fits_iff {ts : List Token} : (∀ t ∈ ts, t.Fits) ↔ ∀ k len, .run k len ∈ ts → len ≤ 1023 :=
  ⟨fun h k len hmem => h _ hmem k len rfl, fun h _ hmem k len heq => h k len (heq ▸ hmem)⟩

theorem Token.split_run_of_pos (k : Kind) {len : Nat} (h : 1 ≤ len) :
    (Token.run k len).split = List.replicate (len / 1023) (.run k 1023) ++
      if len % 1023 ≠ 0 then [.run k (len % 1023)] else [] := by
  cases len with
  | zero => cases h
  | succ n => rfl

theorem Token.split_of_fits {t : Token} (h : t.Fits) : t.split = [t] := by
  cases t with
  | literal b => rfl
  | run k len =>
    have hle := Token.fits_run_iff.1 h
    rcases Nat.eq_zero_or_pos len with rfl | hpos
    · rfl
    rcases hle.eq_or_lt with rfl | hlt
    · rfl
    · rw [Token.split_run_of_pos k hpos, Nat.div_eq_of_lt hlt, Nat.mod_eq_of_lt hlt, if_pos hpos.ne']
      rfl

theorem Token.fits_of_mem_split {t u : Token} (h : u ∈ t.split) : u.Fits := by
  cases t with
  | literal b =>
    obtain rfl := List.mem_singleton.1 h
    exact Token.fits_literal b
  | run k len =>
    rcases Nat.eq_zero_or_pos len with rfl | hpos
    · obtain rfl := List.mem_singleton.1 h
      exact Token.fits_run_iff.2 (Nat.zero_le _)
    rw [Token.split_run_of_pos k hpos] at h
    rcases List.mem_append.1 h with hfull | hlast
    · obtain rfl := List.eq_of_mem_replicate hfull
      exact Token.fits_run_iff.2 le_rfl
    · split_ifs at hlast
      · obtain rfl := List.mem_singleton.1 hlast
        exact Token.fits_run_iff.2 (by omega)
      · cases hlast

theorem fits_of_mem_split {ts : List Token} {t : Token} (h : t ∈ split ts) : t.Fits := by
  obtain ⟨u, -, hmem⟩ := List.mem_flatMap.1 h
  exact Token.fits_of_mem_split hmem

theorem split_of_fits {ts : List Token} (h : ∀ t ∈ ts, t.Fits) : split ts = ts := by
  rw [split, List.flatMap_congr fun t ht => Token.split_of_fits (h t ht), List.flatMap_singleton']

theorem rep_singleton {α : Type} (x : α) (n : Nat) : rep [x] n = List.replicate n x := by
  induction n with
  | zero => rfl
  | succ n ih => rw [rep_succ, ih]; rfl

theorem decompress_replicate_run (k : Kind) (len n : Nat) :
    decompress (List.replicate n (.run k len)) = rep k.unit (n * len) := by
  induction n with
  | zero => simp
  | succ n ih =>
    rw [List.replicate_succ, decompress_cons, ih, Nat.succ_mul, Nat.add_comm, rep_add]
    rfl

/-- R181: the full pieces and the remainder repeat the unit as often as the run does. -/
theorem decompress_token_split (t : Token) : decompress t.split = t.expand := by
  cases t with
  | literal b => rfl
  | run k len =>
    rcases Nat.eq_zero_or_pos len with rfl | hpos
    · rfl
    have hlast : decompress (if len % 1023 ≠ 0 then [Token.run k (len % 1023)] else []) = rep k.unit (len % 1023) := by
      split_ifs with hrem
      · exact (decompress_replicate_run k _ 1).trans (congrArg (rep k.unit) (Nat.one_mul _))
      · rw [not_not.1 hrem]; rfl
    rw [Token.split_run_of_pos k hpos, decompress_append, decompress_replicate_run, hlast, ← rep_add, Nat.mul_comm,
      Nat.div_add_mod]
    rfl

theorem decompress_split (ts : List Token) : decompress (split ts) = decompress ts := by
  rw [split, decompress, List.flatMap_assoc]
  exact List.flatMap_congr fun t _ => decompress_token_split t

/-- Settles O14: the cut of one run, and that SPLIT's tokens fit. -/
theorem splitCutsRunsAndKeepsBytes : Obligations.SplitCutsRunsAndKeepsBytes := by
  have hsingle : ∀ t : Token, split [t] = t.split := fun t => List.flatMap_singleton Token.split t
  refine ⟨fun _ => rfl, fun _ => rfl, fun k len h => ?_, fun k len h => ?_, fun ts => ?_, fun ts => ⟨?_, ?_, ?_⟩⟩
  · rw [hsingle, Token.split_run_of_pos k h, rep_singleton]
  · rw [hsingle, Token.split_of_fits (Token.fits_run_iff.2 h)]
  · exact List.flatMap_congr fun t _ => (hsingle t).symm
  · exact forall_fits_iff.1 fun _ => fits_of_mem_split
  · exact decompress_split ts
  · exact split_of_fits fun _ => fits_of_mem_split

/-! ### The packed cost (R188) -/

theorem Kind.symbols_bounds (k : Kind) : 1 ≤ k.symbols ∧ k.symbols ≤ 3 := by
  cases k <;> simp [Kind.symbols]

/-- R188: a run that needs no split is one packed piece. -/
theorem cost_run_of_le (k : Kind) {len : Nat} (h : len ≤ 1023) : (Token.run k len).cost = k.symbols := by
  have hone : max 1 (pieces len) = 1 := by unfold pieces; omega
  rw [cost_run, hone, Nat.mul_one]

/-- Settles O16: by the cost of a run, and the length of what it packs to. -/
theorem packedCost : Obligations.PackedCost :=
  ⟨fun _ => rfl, fun _ => ⟨rfl, rfl⟩, fun _ _ _ => rfl, length_pack,
    fun k _ h => (cost_run_of_le k h).trans_le k.symbols_bounds.2⟩

/-! ### The symbols of one token (R182 to R185) -/

@[simp] theorem encodeDocument_nil : encodeDocument [] = [] := rfl

theorem Token.pack_literal (b : Byte) : (Token.literal b).pack = [encodeSym (.lit b)] := rfl

theorem Token.pack_zeroRun (len : RunLen) : (Token.run .zeroRun len.toNat).pack = [encodeSym (.zrun len)] := by
  simp [Token.pack, Token.instrs]

theorem Token.pack_ffRun (len : RunLen) : (Token.run .ffRun len.toNat).pack = [encodeSym (.frun len)] := by
  simp [Token.pack, Token.instrs]

theorem Token.pack_patternRun (p0 p1 : Byte) (len : RunLen) :
    (Token.run (.patternRun p0 p1) len.toNat).pack =
      [encodeSym (.prun len), encodeSym (.pat0 p0), encodeSym (.pat1 p1)] := by
  simp [Token.pack, Token.instrs]

theorem Token.length_pack_pos (t : Token) : 1 ≤ t.pack.length := by
  cases t with
  | literal b => exact le_rfl
  | run k len => exact k.symbols_bounds.1.trans_eq (length_pack_run k len).symm

theorem Token.fits_run_toNat (k : Kind) (len : RunLen) : (Token.run k len.toNat).Fits :=
  Token.fits_run_iff.2 (Nat.le_of_lt_succ len.isLt)

theorem Token.Fits.exists_runLen {k : Kind} {len : Nat} (h : (Token.run k len).Fits) : ∃ l : RunLen, l.toNat = len :=
  ⟨BitVec.ofNat 10 len, Nat.mod_eq_of_lt (Nat.lt_succ_of_le (Token.fits_run_iff.1 h))⟩

theorem decodeToken_encodeSym {i : Instr} (h : i.position = .token) : decodeToken (encodeSym i) = i := by
  have hdec := decodeSym_encodeSym i
  rw [h] at hdec
  exact Except.ok.inj hdec

theorem patternByte_pat0 (b : Byte) : patternByte (encodeSym (.pat0 b)) = some b :=
  patternByte_eq_some_iff.2 ⟨symTop_byte _ b, symByte_byte _ b⟩

theorem patternByte_pat1 (b : Byte) : patternByte (encodeSym (.pat1 b)) = some b :=
  patternByte_pat0 b

/-! ### The Unpacker by the format at the front (R191 to R197) -/

theorem unpack_lit {w : Sym} {b : Byte} (h : decodeToken w = .lit b) (rest : List Sym) :
    unpack (w :: rest) = (unpack rest).map (.literal b :: ·) := by
  rw [unpack, h]
  cases unpack rest <;> rfl

theorem unpack_zrun {w : Sym} {len : RunLen} (h : decodeToken w = .zrun len) (rest : List Sym) :
    unpack (w :: rest) = (unpack rest).map (.run .zeroRun len.toNat :: ·) := by
  rw [unpack, h]
  cases unpack rest <;> rfl

theorem unpack_frun {w : Sym} {len : RunLen} (h : decodeToken w = .frun len) (rest : List Sym) :
    unpack (w :: rest) = (unpack rest).map (.run .ffRun len.toNat :: ·) := by
  rw [unpack, h]
  cases unpack rest <;> rfl

theorem unpack_prun {w a c : Sym} {len : RunLen} {p0 p1 : Byte} (h : decodeToken w = .prun len)
    (ha : patternByte a = some p0) (hc : patternByte c = some p1) (rest : List Sym) :
    unpack (w :: a :: c :: rest) = (unpack rest).map (.run (.patternRun p0 p1) len.toNat :: ·) := by
  rw [unpack, h]
  simp only [ha, hc]
  cases unpack rest <;> rfl

/-- R195: the symbols after a PRUN head are its two operands, or the body is refused. -/
theorem unpack_prun_cases {w : Sym} {len : RunLen} (h : decodeToken w = .prun len) (rest : List Sym) :
    unpack (w :: rest) = .error .malformedBody ∨
      ∃ p0 p1 tail, rest = encodeSym (.pat0 p0) :: encodeSym (.pat1 p1) :: tail := by
  match rest with
  | [] | [_] => left; rw [unpack, h]
  | a :: c :: tail =>
    cases ha : patternByte a with
    | none => left; simp only [unpack, h, ha]
    | some p0 =>
      cases hc : patternByte c with
      | none => left; simp only [unpack, h, ha, hc]
      | some p1 =>
        obtain rfl : encodeSym (.pat0 p0) = a := append_patternByte ha
        obtain rfl : encodeSym (.pat1 p1) = c := append_patternByte hc
        exact .inr ⟨p0, p1, tail, rfl⟩

/-- R197: the Unpacker reads one packed token off the front of a body and goes on behind it. -/
theorem unpack_pack_append {t : Token} (h : t.Fits) (rest : List Sym) :
    unpack (t.pack ++ rest) = (unpack rest).map (t :: ·) := by
  cases t with
  | literal b => exact unpack_lit (decodeToken_encodeSym rfl) rest
  | run k len =>
    obtain ⟨l, rfl⟩ := h.exists_runLen
    cases k with
    | zeroRun =>
      rw [Token.pack_zeroRun]
      exact unpack_zrun (decodeToken_encodeSym rfl) rest
    | ffRun =>
      rw [Token.pack_ffRun]
      exact unpack_frun (decodeToken_encodeSym rfl) rest
    | patternRun p0 p1 =>
      rw [Token.pack_patternRun]
      exact unpack_prun (decodeToken_encodeSym rfl) (patternByte_pat0 p0) (patternByte_pat1 p1) rest

/-- R191 to R197: a body is at its end, is refused, or begins with a packed token. -/
theorem unpack_cases (body : List Sym) :
    body = [] ∨ unpack body = .error .malformedBody ∨ ∃ t rest, Token.Fits t ∧ body = t.pack ++ rest := by
  cases body with
  | nil => exact .inl rfl
  | cons w rest =>
    right
    have hw : w = encodeSym (decodeToken w) := (encodeSym_decodeToken w).symm
    cases hdec : decodeToken w with
    | lit b => exact .inr ⟨.literal b, rest, Token.fits_literal b, by rw [Token.pack_literal, ← hdec, ← hw]; rfl⟩
    | zrun len => exact .inr ⟨_, rest, Token.fits_run_toNat .zeroRun len, by rw [Token.pack_zeroRun, ← hdec, ← hw]; rfl⟩
    | frun len => exact .inr ⟨_, rest, Token.fits_run_toNat .ffRun len, by rw [Token.pack_ffRun, ← hdec, ← hw]; rfl⟩
    | prun len =>
      rcases unpack_prun_cases hdec rest with hrefused | ⟨p0, p1, tail, rfl⟩
      · exact .inl hrefused
      · exact .inr ⟨_, tail, Token.fits_run_toNat (.patternRun p0 p1) len, by
          rw [Token.pack_patternRun, ← hdec, ← hw]; rfl⟩
    | rsv100 | rsv200 | rsv300 | hdr3 | hdr2 | hdr1 | hdr0 | pat0 | pat1 => left; rw [unpack, hdec]

/-! ### The Unpacker and the Packer undo each other (R198) -/

theorem unpack_flatMap_pack {ts : List Token} (h : ∀ t ∈ ts, t.Fits) : unpack (ts.flatMap Token.pack) = .ok ts := by
  induction ts with
  | nil => rfl
  | cons t ts ih =>
    obtain ⟨ht, hts⟩ := List.forall_mem_cons.1 h
    rw [List.flatMap_cons, unpack_pack_append ht, ih hts]
    rfl

theorem unpack_pack (ts : List Token) : unpack (pack ts) = .ok (split ts) :=
  unpack_flatMap_pack fun _ => fits_of_mem_split

/-- R191 to R197: what the Unpacker accepts is the symbols of the tokens it answers, each of which fits. -/
theorem eq_flatMap_pack_of_unpack {body : List Sym} {ts : List Token} (h : unpack body = .ok ts) :
    (∀ t ∈ ts, t.Fits) ∧ body = ts.flatMap Token.pack := by
  rcases unpack_cases body with rfl | herr | ⟨t, rest, ht, rfl⟩
  · cases h; exact ⟨nofun, rfl⟩
  · rw [herr] at h; cases h
  · have hshorter : rest.length < (t.pack ++ rest).length := by
      have := t.length_pack_pos
      rw [List.length_append]; omega
    rw [unpack_pack_append ht] at h
    cases hrest : unpack rest with
    | error k => rw [hrest] at h; cases h
    | ok ts' =>
      rw [hrest] at h
      cases h
      obtain ⟨hts, hbody⟩ := eq_flatMap_pack_of_unpack hrest
      exact ⟨List.forall_mem_cons.2 ⟨ht, hts⟩, congrArg (t.pack ++ ·) hbody⟩
termination_by body.length

theorem pack_of_unpack {body : List Sym} {ts : List Token} (h : unpack body = .ok ts) : pack ts = body := by
  obtain ⟨hfits, hbody⟩ := eq_flatMap_pack_of_unpack h
  rw [pack, split_of_fits hfits, hbody]

theorem toNat_carry_codePoint (w : Sym) : (carry (codePoint w)).toNat = 0xE000 + w.toNat := by
  rw [carry, BitVec.toNat_setWidth_of_le (by decide), codePoint_toNat]

/-- Settles O15: the Unpacker reads packed tokens off, accepts nothing else, and FROMCP is an equation of numbers. -/
theorem unpackInvertsPack : Obligations.UnpackInvertsPack := by
  refine ⟨unpack_pack, fun ts h => ?_, fun _ _ => pack_of_unpack, fun w => ?_, fun c w h => ?_⟩
  · rw [unpack_pack, split_of_fits (forall_fits_iff.2 h)]
  · exact fromCodePoint_eq_ok_iff.2 (toNat_carry_codePoint w)
  · exact BitVec.eq_of_toNat_eq ((toNat_carry_codePoint w).trans (fromCodePoint_eq_ok_iff.1 h).symm)

/-! ### The instructions of a body (R192 to R196, R258) -/

/-- Settles O30: the count of one Append. -/
theorem literalAppendsItsByte : Obligations.LiteralAppendsItsByte := by
  intro b s
  have hlast : decide (2 ^ 48 ≤ s.dec.ocnt.toNat + 1) = (s.dec.ocnt.toNat == 2 ^ 48 - 1) := by
    rw [Bool.eq_iff_iff, decide_eq_true_iff, beq_iff_eq]
    have := s.dec.ocnt.isLt
    omega
  have hcount : s.dec.count = { s.dec with
      ocnt := BitVec.ofNat 48 (s.dec.ocnt.toNat + 1)
      ovf := s.dec.ovf || (s.dec.ocnt.toNat == 2 ^ 48 - 1) } := by
    rw [← hlast]
    exact DecRegs.count_iterate s.dec 1
  change (.next ((s.emitByte b).setDec { s.dec.count with scur := s.dec.scur + 1 }) : Result) = _
  rw [hcount]
  rfl

/-- Settles O31: each head's meaning is the load. -/
theorem runHeadsLoadTheRun : Obligations.RunHeadsLoadTheRun :=
  fun _ _ => ⟨rfl, rfl⟩

/-- Settles O34: each symbol's meaning is the load. -/
theorem patternBytesLoadThePair : Obligations.PatternBytesLoadThePair :=
  fun _ _ => ⟨rfl, rfl⟩

/-- Settles O32: two symbols with bits [11:8] zero are legal operands. -/
theorem patternRunLoadsThePair : Obligations.PatternRunLoadsThePair := by
  intro len s a c hm ha hc hatop hctop
  have hp0 : patternByte a = some (symByte a) := patternByte_eq_some_iff.2 ⟨hatop, rfl⟩
  have hp1 : patternByte c = some (symByte c) := patternByte_eq_some_iff.2 ⟨hctop, rfl⟩
  have hscur : s.dec.scur + 1 + 1 + 1 = s.dec.scur + 3 := by simp [BitVec.add_assoc]
  rw [exec_prun_ok hm ha hp0 hc hp1, DecRegs.loadPattern, hscur]
  rfl

theorem exec_prun_cut {s : State} (len : RunLen) (h : s.dec.m.toNat ≤ s.dec.scur.toNat + 2) :
    exec (.prun len) s = .next (s.failCall .malformedBody) :=
  withPattern_cut _ h

/-- R105, R195: a PRUN with a reserved operand symbol raises `MalformedBody`. -/
theorem exec_prun_reserved {s : State} {a c : Sym} (len : RunLen) (hm : s.dec.scur.toNat + 2 < s.dec.m.toNat)
    (ha : SymbolAt s (s.dec.scur.toNat + 1) a) (hc : SymbolAt s (s.dec.scur.toNat + 2) c)
    (h : patternByte a = none ∨ patternByte c = none) :
    exec (.prun len) s = .next (s.failCall .malformedBody) := by
  obtain ⟨ca, hra, hca⟩ := ha
  obtain ⟨cc, hrc, hcc⟩ := hc
  refine (withPattern_ok _ hm hra hca hrc hcc).trans ?_
  rcases h with hnone | hnone
  · rw [hnone]
  · rw [hnone]
    cases patternByte a <;> rfl

/-- Settles O33: the two causes of R195. -/
theorem patternRunTrapsWhenCutOrReserved : Obligations.PatternRunTrapsWhenCutOrReserved :=
  fun len _ => ⟨exec_prun_cut len, fun _ _ hm ha hc h =>
    exec_prun_reserved len hm ha hc (h.imp patternByte_eq_none_iff.2 patternByte_eq_none_iff.2)⟩

theorem exec_reserved {x : Byte} {i : Instr} (h : i ∈ [Instr.rsv100 x, .rsv200 x, .rsv300 x]) (s : State) :
    exec i s = .next (s.failCall .malformedBody) := by
  simp only [List.mem_cons, List.not_mem_nil, or_false] at h
  rcases h with rfl | rfl | rfl <;> rfl

/-- R104: a literal's tag with bits [9:8] not zero is one of the three reserved rows. -/
theorem decodeToken_reserved {w : Sym} (htag : symTag w = 0b00#2) (hhigh : symHigh w ≠ 0b00#2) :
    decodeToken w ∈ [Instr.rsv100 (symByte w), .rsv200 (symByte w), .rsv300 (symByte w)] := by
  unfold decodeToken
  split_ifs with t1 t2 t3 b1 b2 b3
  · exact absurd (htag.symm.trans t1) (by decide)
  · exact absurd (htag.symm.trans t2) (by decide)
  · exact absurd (htag.symm.trans t3) (by decide)
  · simp
  · simp
  · simp
  · exact absurd (field2_eq_zero b1 b2 b3) hhigh

theorem unpack_reserved {w : Sym} {x : Byte} (h : decodeToken w ∈ [Instr.rsv100 x, .rsv200 x, .rsv300 x])
    (rest : List Sym) : unpack (w :: rest) = .error .malformedBody := by
  simp only [List.mem_cons, List.not_mem_nil, or_false] at h
  rcases h with hdec | hdec | hdec <;> rw [unpack, hdec]

/-- Settles O35: on the machine, and in `unpack` through the decoder. -/
theorem reservedLiteralsRaiseMalformedBody : Obligations.ReservedLiteralsRaiseMalformedBody :=
  ⟨fun _ s _ h => exec_reserved h s, fun w rest htag hhigh =>
    have hmem := decodeToken_reserved (w := w) htag hhigh
    ⟨unpack_reserved hmem rest, symByte w, decodeToken w, hmem, rfl⟩⟩

end Sys2Proof.Machine

/-! SUPPORT. The Header Codec (43_header_codec.md). The four fields of a length put together give the length, and a
length put together has those four fields, so H.WRITE and H.READ undo each other. FROMCP runs before H.READ and the
Unpacker raises only `MalformedBody`, so a decode call raises `MalformedHeader` exactly where H.READ does. The meanings
of the header's instructions follow. -/

namespace Sys2Proof.Machine

/-! ### H.WRITE and H.READ undo each other (R221, R223, R225) -/

/-- R221: a field of a length is its base-4096 digit. -/
theorem toNat_field (n : Len48) (k : Nat) : (n.extractLsb' k 12).toNat = n.toNat / 2 ^ k % 4096 := by
  rw [BitVec.extractLsb'_toNat, Nat.shiftRight_eq_div_pow]

/-- R100: the four fields of a length, most significant first, are the length. -/
theorem fields_append (n : Len48) :
    (n.extractLsb' 36 12 ++ n.extractLsb' 24 12 ++ n.extractLsb' 12 12 ++ n.extractLsb' 0 12 :
      BitVec (12 + 12 + 12 + 12)) = n := by
  have h24 : n.extractLsb' 36 12 ++ n.extractLsb' 24 12 = n.extractLsb' 24 24 :=
    BitVec.extractLsb'_append_extractLsb'_eq_extractLsb' rfl
  have h12 : n.extractLsb' 24 24 ++ n.extractLsb' 12 12 = n.extractLsb' 12 36 :=
    BitVec.extractLsb'_append_extractLsb'_eq_extractLsb' rfl
  rw [h24, h12]
  exact BitVec.extractLsb'_append_extractLsb' (w := 36) (len := 12) (x := n)

/-- A symbol behind a value moves every field of it up by 12 bits. -/
theorem field_append {m : Nat} (x : BitVec m) (w : Sym) (k : Nat) :
    (x ++ w).extractLsb' (k + 12) 12 = x.extractLsb' k 12 :=
  BitVec.extractLsb'_append_eq_of_le (Nat.le_add_left 12 k)

/-- R225: every four symbols are the header of a length. -/
theorem writeHeader_append (s0 s1 s2 s3 : Sym) :
    writeHeader (s0 ++ s1 ++ s2 ++ s3 : BitVec (12 + 12 + 12 + 12)) = [s0, s1, s2, s3] := by
  have h3 : (s0 ++ s1 ++ s2 ++ s3).extractLsb' 36 12 = s0 :=
    (field_append (s0 ++ s1 ++ s2) s3 24).trans
      ((field_append (s0 ++ s1) s2 12).trans BitVec.extractLsb'_append_eq_left)
  have h2 : (s0 ++ s1 ++ s2 ++ s3).extractLsb' 24 12 = s1 :=
    (field_append (s0 ++ s1 ++ s2) s3 12).trans
      ((field_append (s0 ++ s1) s2 0).trans BitVec.extractLsb'_append_eq_right)
  have h1 : (s0 ++ s1 ++ s2 ++ s3).extractLsb' 12 12 = s2 :=
    (field_append (s0 ++ s1 ++ s2) s3 0).trans BitVec.extractLsb'_append_eq_right
  have h0 : (s0 ++ s1 ++ s2 ++ s3).extractLsb' 0 12 = s3 := BitVec.extractLsb'_append_eq_right
  rw [writeHeader, h3, h2, h1, h0]

theorem readHeader_writeHeader_append (n : Len48) (body : List Sym) :
    readHeader (writeHeader n ++ body) = .ok (n, body) :=
  congrArg (fun m => Except.ok (m, body)) (fields_append n)

theorem readHeader_of_short {s : List Sym} (h : s.length < 4) : readHeader s = .error .malformedHeader := by
  match s with
  | [] | [_] | [_, _] | [_, _, _] => rfl
  | _ :: _ :: _ :: _ :: rest => simp at h; omega

theorem readHeader_of_long {s : List Sym} (h : 4 ≤ s.length) :
    ∃ n rest, readHeader s = .ok (n, rest) ∧ writeHeader n ++ rest = s := by
  match s with
  | s0 :: s1 :: s2 :: s3 :: rest =>
    exact ⟨_, rest, rfl, congrArg (· ++ rest) (writeHeader_append s0 s1 s2 s3)⟩

/-- Settles O7: putting the fields together and taking them apart undo each other. -/
theorem headerRoundTrips : Obligations.HeaderRoundTrips :=
  ⟨readHeader_writeHeader_append, fun _ => readHeader_of_long⟩

/-- R224: H.READ fails exactly on fewer than four symbols. -/
theorem readHeader_eq_malformedHeader_iff {s : List Sym} : readHeader s = .error .malformedHeader ↔ s.length < 4 := by
  refine ⟨fun h => ?_, readHeader_of_short⟩
  by_contra hlong
  obtain ⟨n, rest, hok, -⟩ := readHeader_of_long (Nat.le_of_not_lt hlong)
  rw [hok] at h
  cases h

/-! ### FROMCP over a document, the Unpacker, and the phase a decode call fails in (R190, R224, R242, R285) -/

/-- R190: FROMCP over a document fails at an element out of range, or gives one symbol an element. -/
theorem fromCodePoints_cases (c : List CPIn) :
    ((∃ x ∈ c, ¬(0xE000 ≤ x.toNat ∧ x.toNat ≤ 0xEFFF)) ∧ fromCodePoints c = .error .outOfRangeSymbol) ∨
    ((∀ x ∈ c, 0xE000 ≤ x.toNat ∧ x.toNat ≤ 0xEFFF) ∧ ∃ s, fromCodePoints c = .ok s ∧ s.length = c.length) := by
  induction c with
  | nil => exact .inr ⟨nofun, [], rfl, rfl⟩
  | cons x c ih =>
    cases hx : fromCodePoint x with
    | error e =>
      have hout : ¬(0xE000 ≤ x.toNat ∧ x.toNat ≤ 0xEFFF) := by
        rw [← exists_fromCodePoint_iff, hx]
        exact nofun
      exact .inl ⟨⟨x, List.mem_cons_self, hout⟩, by rw [fromCodePoints, hx]⟩
    | ok w =>
      have hin := (exists_fromCodePoint_iff x).1 ⟨w, hx⟩
      rcases ih with ⟨⟨y, hy, hout⟩, herr⟩ | ⟨hall, s, hok, hlen⟩
      · exact .inl ⟨⟨y, List.mem_cons_of_mem x hy, hout⟩, by simp only [fromCodePoints, hx, herr]⟩
      · exact .inr ⟨List.forall_mem_cons.2 ⟨hin, hall⟩, w :: s, by simp only [fromCodePoints, hx, hok],
          congrArg (· + 1) hlen⟩

/-- R285: the Unpacker raises no failure but `MalformedBody`. -/
theorem unpack_error {body : List Sym} {k : FailureKind} (h : unpack body = .error k) : k = .malformedBody := by
  rcases unpack_cases body with rfl | herr | ⟨t, rest, ht, rfl⟩
  · cases h
  · rw [herr] at h
    cases h
    rfl
  · have hshorter : rest.length < (t.pack ++ rest).length := by
      have := t.length_pack_pos
      rw [List.length_append]
      omega
    rw [unpack_pack_append ht] at h
    cases hrest : unpack rest with
    | error k' =>
      rw [hrest] at h
      cases h
      exact unpack_error hrest
    | ok ts =>
      rw [hrest] at h
      cases h
termination_by body.length

theorem decodeCall_of_fromCodePoints_error {c : List CPIn} {k : FailureKind} (h : fromCodePoints c = .error k) :
    decodeCall c = .error k := by
  simp only [decodeCall, h]

theorem decodeCall_of_readHeader_error {c : List CPIn} {s : List Sym} {k : FailureKind}
    (hs : fromCodePoints c = .ok s) (h : readHeader s = .error k) : decodeCall c = .error k := by
  simp only [decodeCall, hs, h]

/-- R241: a decode call past its header has the Unpacker's failure, or the outcome of the length check. -/
theorem decodeCall_of_readHeader_ok {c : List CPIn} {s body : List Sym} {n : Len48}
    (hs : fromCodePoints c = .ok s) (h : readHeader s = .ok (n, body)) :
    decodeCall c = (unpack body).bind fun ts =>
      if (decompress ts).length = n.toNat then .ok (decompress ts) else .error .lengthMismatch := by
  simp only [decodeCall, hs, h]
  cases unpack body <;> rfl

/-- R224: behind the header no phase raises `MalformedHeader`. -/
theorem decodeCall_ne_malformedHeader {c : List CPIn} {s : List Sym} (hs : fromCodePoints c = .ok s)
    (h : 4 ≤ s.length) : decodeCall c ≠ .error .malformedHeader := by
  obtain ⟨n, body, hread, -⟩ := readHeader_of_long h
  rw [decodeCall_of_readHeader_ok hs hread]
  cases hbody : unpack body with
  | error k =>
    rw [unpack_error hbody]
    exact nofun
  | ok ts =>
    simp only [Except.bind]
    split <;> exact nofun

/-- R224, R242: a decode call fails with `MalformedHeader` exactly on a short document that is all in range. -/
theorem decodeCall_eq_malformedHeader_iff {c : List CPIn} :
    decodeCall c = .error .malformedHeader ↔ c.length < 4 ∧ ∀ x ∈ c, 0xE000 ≤ x.toNat ∧ x.toNat ≤ 0xEFFF := by
  rcases fromCodePoints_cases c with ⟨⟨x, hx, hout⟩, herr⟩ | ⟨hall, s, hs, hlen⟩
  · rw [decodeCall_of_fromCodePoints_error herr]
    exact iff_of_false nofun fun h => hout (h.2 x hx)
  · rw [← hlen, and_iff_left hall]
    by_cases hshort : s.length < 4
    · exact iff_of_true (decodeCall_of_readHeader_error hs (readHeader_of_short hshort)) hshort
    · exact iff_of_false (decodeCall_ne_malformedHeader hs (Nat.le_of_not_lt hshort)) hshort

theorem decodeCall_of_outOfRange {c : List CPIn} (h : ∃ x ∈ c, ¬(0xE000 ≤ x.toNat ∧ x.toNat ≤ 0xEFFF)) :
    decodeCall c = .error .outOfRangeSymbol := by
  rcases fromCodePoints_cases c with ⟨-, herr⟩ | ⟨hall, -⟩
  · exact decodeCall_of_fromCodePoints_error herr
  · obtain ⟨x, hx, hout⟩ := h
    exact absurd (hall x hx) hout

/-- Settles O8: H.READ alone raises `MalformedHeader`, and FROMCP runs before it. -/
theorem malformedHeaderExactlyWhenShort : Obligations.MalformedHeaderExactlyWhenShort :=
  ⟨fun _ => readHeader_eq_malformedHeader_iff, fun _ => decodeCall_eq_malformedHeader_iff,
    fun _ _ => decodeCall_of_outOfRange, decodeCall_eq_malformedHeader_iff.2 ⟨by decide, nofun⟩⟩

/-! ### Digits and the empty payload (R221, R226) -/

/-- Settles O6: each field is a digit, and the lengths written out evaluate. -/
theorem writeHeaderGivesFourDigits : Obligations.WriteHeaderGivesFourDigits := by
  refine ⟨fun n => ?_, fun _ => rfl, rfl, rfl, rfl, rfl, rfl, rfl, rfl, rfl⟩
  simp only [writeHeader, List.map_cons, List.map_nil, toNat_field, Nat.pow_zero, Nat.div_one]

/-- Settles O23: the empty buffer is a header of value 0 and an empty body, both ways. -/
theorem emptyPayloadRoundTrips : Obligations.EmptyPayloadRoundTrips := by
  refine ⟨rfl, ?_⟩
  have hs : fromCodePoints [0xE000#21, 0xE000#21, 0xE000#21, 0xE000#21] = .ok (writeHeader 0 ++ []) := by decide
  rw [decodeCall_of_readHeader_ok hs (readHeader_writeHeader_append 0 [])]
  rfl

/-! ### The instructions of a header (R223, R224, R258) -/

theorem headerSymbol_of_long {s : State} (d : DecRegs) (h : 4 ≤ s.dec.m.toNat) :
    headerSymbol s d = .next (s.setDec d) :=
  ((headerSymbol_cases s d).resolve_left fun hshort => Nat.not_lt.2 h hshort.1).2

theorem headerSymbol_of_short {s : State} (d : DecRegs) (h : s.dec.m.toNat < 4) :
    headerSymbol s d = .next (s.failCall .malformedHeader) :=
  ((headerSymbol_cases s d).resolve_right fun hlong => Nat.not_lt.2 hlong.1 h).2

/-- Settles O28: each header symbol's meaning is its load, where the document is long enough. -/
theorem headerSymbolsLoadHdr : Obligations.HeaderSymbolsLoadHdr :=
  fun _ _ hm => ⟨headerSymbol_of_long _ hm, headerSymbol_of_long _ hm, headerSymbol_of_long _ hm,
    headerSymbol_of_long _ hm⟩

/-- Settles O29: each header symbol tests the document's length before its load. -/
theorem headerSymbolsTrapWhenShort : Obligations.HeaderSymbolsTrapWhenShort := by
  intro h s hm i hi
  simp only [List.mem_cons, List.not_mem_nil, or_false] at hi
  rcases hi with rfl | rfl | rfl | rfl <;> exact headerSymbol_of_short _ hm

end Sys2Proof.Machine

/-! SUPPORT. The two calls as functions (44_orchestration.md R240 to R246, R255, R256). Whatever header value and body
a document is made of, a decode call answers with the Unpacker's failure or the outcome of the length check; the round
trip and what a changed symbol does are read off that. The length of an encoded document is the header and the tokens'
costs. -/

namespace Sys2Proof.Machine

/-! ### Documents made of symbols (R190, R240, R241) -/

/-- H4: the document that carries the symbols `ws`, as DEC reads it. -/
def carried (ws : List Sym) : List CPIn := ws.map fun w => carry (codePoint w)

theorem map_carry_map_codePoint (ws : List Sym) : (ws.map codePoint).map carry = carried ws := by
  rw [List.map_map]
  rfl

theorem fromCodePoint_carry (w : Sym) : fromCodePoint (carry (codePoint w)) = .ok w :=
  fromCodePoint_eq_ok_iff.2 (toNat_carry_codePoint w)

/-- R102, R190: FROMCP gives a document's symbols back. -/
theorem fromCodePoints_carried (ws : List Sym) : fromCodePoints (carried ws) = .ok ws := by
  induction ws with
  | nil => rfl
  | cons w ws ih =>
    have ih' : fromCodePoints (ws.map fun w => carry (codePoint w)) = .ok ws := ih
    simp only [carried, List.map_cons, fromCodePoints, fromCodePoint_carry, ih']

/-- R241: a decode call on a header of value `n` and a body. -/
theorem decodeCall_carried (n : Len48) (body : List Sym) :
    decodeCall (carried (writeHeader n ++ body)) = (unpack body).bind fun ts =>
      if (decompress ts).length = n.toNat then .ok (decompress ts) else .error .lengthMismatch :=
  decodeCall_of_readHeader_ok (fromCodePoints_carried _) (readHeader_writeHeader_append n body)

theorem encodeCall_of_fits {b : List Byte} (h : b.length < 2 ^ 48) :
    encodeCall b = some ((encodedSymbols b).map codePoint) :=
  if_pos h

theorem length_lt_of_encodeCall {b : List Byte} {c : List CPOut} (h : encodeCall b = some c) : b.length < 2 ^ 48 := by
  by_contra hlong
  rw [encodeCall, if_neg hlong] at h
  cases h

theorem toNat_ofNat_length {b : List Byte} (h : b.length < 2 ^ 48) : (BitVec.ofNat 48 b.length).toNat = b.length :=
  Nat.mod_eq_of_lt h

theorem unpack_pack_compress (b : List Byte) : unpack (pack (compress b)) = .ok (split (compress b)) :=
  unpack_pack _

theorem decompress_split_compress (b : List Byte) : decompress (split (compress b)) = b := by
  rw [decompress_split, decompress_compress]

/-- R256 (2): the body of an encoded document under any header: the length check tells whether the header is `|b|`. -/
theorem decodeCall_header_pack_compress (n : Len48) (b : List Byte) :
    decodeCall (carried (writeHeader n ++ pack (compress b))) =
      if b.length = n.toNat then .ok b else .error .lengthMismatch := by
  rw [decodeCall_carried, unpack_pack_compress, Except.bind, decompress_split_compress]

/-- Settles O20: the header of an encoded document is the length of what its body expands to. -/
theorem decodeInvertsEncode : Obligations.DecodeInvertsEncode := by
  intro b hb
  have hfits : b.length < 2 ^ 48 := by omega
  refine ⟨_, encodeCall_of_fits hfits, ?_⟩
  rw [map_carry_map_codePoint, encodedSymbols, decodeCall_header_pack_compress, if_pos (toNat_ofNat_length hfits).symm]

/-! ### The range of code points (R246) -/

/-- R241: past FROMCP a decode call does not raise `OutOfRangeSymbol`. -/
theorem decodeCall_ne_outOfRange {c : List CPIn} {s : List Sym} (hs : fromCodePoints c = .ok s) :
    decodeCall c ≠ .error .outOfRangeSymbol := by
  by_cases hshort : s.length < 4
  · rw [decodeCall_of_readHeader_error hs (readHeader_of_short hshort)]
    exact nofun
  · obtain ⟨n, body, hread, -⟩ := readHeader_of_long (Nat.le_of_not_lt hshort)
    rw [decodeCall_of_readHeader_ok hs hread]
    cases hbody : unpack body with
    | error k =>
      rw [unpack_error hbody]
      exact nofun
    | ok ts =>
      simp only [Except.bind]
      split <;> exact nofun

/-- Settles O21: what ENC emits is code points of symbols, and FROMCP alone raises `OutOfRangeSymbol`. -/
theorem codePointsStayInRange : Obligations.CodePointsStayInRange := by
  refine ⟨fun b c h x hx => ?_, fun c => ⟨fun herr => ?_, decodeCall_of_outOfRange⟩⟩
  · rw [encodeCall_eq_some h] at hx
    obtain ⟨w, -, rfl⟩ := List.mem_map.1 hx
    exact codePoint_mem_range w
  · rcases fromCodePoints_cases c with ⟨hout, -⟩ | ⟨-, s, hs, -⟩
    · exact hout
    · exact absurd herr (decodeCall_ne_outOfRange hs)

/-! ### The length of an encoded document (R240, R255) -/

/-- R240: four header symbols, and the packed cost of each token. -/
theorem length_encodedSymbols (b : List Byte) :
    (encodedSymbols b).length = 4 + ((compress b).map Token.cost).sum := by
  rw [encodedSymbols, List.length_append, length_pack]
  rfl

theorem length_encodeCall {b : List Byte} {c : List CPOut} (h : encodeCall b = some c) :
    c.length = 4 + ((compress b).map Token.cost).sum := by
  rw [encodeCall_eq_some h, List.length_map, length_encodedSymbols]

/-- R144: a token emitted costs at most a symbol a byte, and exactly that when it is a literal. -/
theorem compress_cost {b : List Byte} {t : Token} (h : t ∈ compress b) :
    t.cost ≤ t.byteLen ∧ (t.cost = t.byteLen ↔ ∃ x, t = .literal x) := by
  cases t with
  | literal x => exact ⟨le_rfl, iff_of_true rfl ⟨x, rfl⟩⟩
  | run k len =>
    have hlen := compress_run_length h
    have hlt := run_cost_lt_byteLen k (len := len) (by omega)
    exact ⟨hlt.le, iff_of_false hlt.ne nofun⟩

/-- Sums of two measures, the one bounded by the other term by term, agree exactly when the measures do. -/
theorem sum_map_le_and_eq_iff {α : Type} {f g : α → Nat} {l : List α} (h : ∀ x ∈ l, f x ≤ g x) :
    (l.map f).sum ≤ (l.map g).sum ∧ ((l.map f).sum = (l.map g).sum ↔ ∀ x ∈ l, f x = g x) := by
  induction l with
  | nil => simp
  | cons x l ih =>
    obtain ⟨hx, hl⟩ := List.forall_mem_cons.1 h
    obtain ⟨hle, heq⟩ := ih hl
    rw [List.forall_mem_cons, ← heq, List.map_cons, List.map_cons, List.sum_cons, List.sum_cons]
    omega

/-- The packed cost of a compressed buffer is at most its length, and that exactly when it is all literals. -/
theorem compress_cost_sum (b : List Byte) :
    ((compress b).map Token.cost).sum ≤ b.length ∧
      (((compress b).map Token.cost).sum = b.length ↔ ∀ t ∈ compress b, ∃ x, t = .literal x) := by
  obtain ⟨hle, heq⟩ := sum_map_le_and_eq_iff fun t (ht : t ∈ compress b) => (compress_cost ht).1
  rw [compress_byteLen_sum] at hle heq
  exact ⟨hle, heq.trans (forall₂_congr fun t ht => (compress_cost ht).2)⟩

/-- Settles O22: by the packed cost of the compressed buffer. -/
theorem encodedLengthBounds : Obligations.EncodedLengthBounds := by
  intro b c h
  obtain ⟨hle, heq⟩ := compress_cost_sum b
  rw [length_encodeCall h, ← heq]
  omega

/-! ### A header symbol changed (R256 (1), (2)) -/

theorem carry_codePoint_of_fromCodePoint {c : CPIn} {w : Sym} (h : fromCodePoint c = .ok w) :
    carry (codePoint w) = c :=
  BitVec.eq_of_toNat_eq ((toNat_carry_codePoint w).trans (fromCodePoint_eq_ok_iff.1 h).symm)

/-- One code point in range replaced is one symbol replaced. -/
theorem carried_set {ws : List Sym} {i : Nat} {w : Sym} :
    carried (ws.set i w) = (carried ws).set i (carry (codePoint w)) :=
  List.map_set

theorem carried_getElem? (ws : List Sym) (i : Nat) :
    (carried ws)[i]? = ws[i]?.map fun w => carry (codePoint w) :=
  List.getElem?_map

theorem length_writeHeader (n : Len48) : (writeHeader n).length = 4 := rfl

/-- R225: a header with a symbol replaced is the header of another value. -/
theorem writeHeader_set {n : Len48} {i : Nat} {w : Sym} (hi : i < 4) (h : (writeHeader n)[i]? ≠ some w) :
    ∃ m, m ≠ n ∧ (writeHeader n).set i w = writeHeader m := by
  obtain ⟨m, rest, -, hm⟩ := readHeader_of_long (s := (writeHeader n).set i w) (by simp [length_writeHeader])
  have hrest : rest = [] := by
    have hlen := congrArg List.length hm
    simp only [List.length_append, List.length_set, length_writeHeader] at hlen
    exact List.eq_nil_of_length_eq_zero (by omega)
  rw [hrest, List.append_nil] at hm
  refine ⟨m, ?_, hm.symm⟩
  rintro rfl
  apply h
  rw [hm, List.getElem?_set_self (by simpa [length_writeHeader] using hi)]

/-- Settles O26: a code point out of range stops FROMCP; in range at a header's index it makes the header another value,
which the length check finds. -/
theorem headerCorruptionIsDetected : Obligations.HeaderCorruptionIsDetected := by
  intro b c i x h hi hx
  have hfits := length_lt_of_encodeCall h
  rw [encodeCall_eq_some h, List.length_map] at hi
  rw [encodeCall_eq_some h, map_carry_map_codePoint] at hx ⊢
  refine ⟨fun hout => decodeCall_of_outOfRange ⟨x, List.mem_set ?_ x, hout⟩, fun hin hi4 => ?_⟩
  · simpa [carried] using hi
  · obtain ⟨w, hw⟩ := (exists_fromCodePoint_iff x).2 hin
    obtain rfl := carry_codePoint_of_fromCodePoint hw
    have hhead : i < (writeHeader (BitVec.ofNat 48 b.length)).length := hi4
    have hne : (writeHeader (BitVec.ofNat 48 b.length))[i]? ≠ some w := by
      intro heq
      apply hx
      rw [carried_getElem?, encodedSymbols, List.getElem?_append_left hhead, heq]
      rfl
    obtain ⟨m, hm, hset⟩ := writeHeader_set hi4 hne
    rw [← carried_set, encodedSymbols, List.set_append_left _ _ hhead, hset, decodeCall_header_pack_compress, if_neg]
    intro heq
    exact hm (BitVec.eq_of_toNat_eq (heq.symm.trans (toNat_ofNat_length hfits).symm))

/-! ### Buffers without a run, and repeated bytes (R255) -/

theorem rep_drop_singleton {α : Type} (x : α) (n i : Nat) : (rep [x] n).drop i = rep [x] (n - i) := by
  simp [rep_singleton]

theorem length_rep_singleton {α : Type} (x : α) (n : Nat) : (rep [x] n).length = n := by
  simp [rep_length]

theorem leadingCount_rep (v x : Byte) (n : Nat) : leadingCount v (rep [x] n) = if x = v then n else 0 := by
  induction n with
  | zero => simp [leadingCount]
  | succ n ih =>
    by_cases hx : x = v
    · simpa [leadingCount, hx] using ih
    · simp [leadingCount, hx]

/-- R134: a byte repeated is half as many pairs of it. -/
theorem leadingPairs_rep (x : Byte) (n : Nat) : leadingPairs x x (rep [x] n) = n / 2 := by
  induction n using Nat.twoStepInduction with
  | zero => rfl
  | one => rfl
  | more n ih _ =>
    have hstep : leadingPairs x x (rep [x] (n + 2)) = leadingPairs x x (rep [x] n) + 1 := by
      simp [leadingPairs]
    rw [hstep, ih]
    omega

theorem zcount_rep (x : Byte) (n i : Nat) : zcount (rep [x] n) i = if x = 0x00#8 then n - i else 0 := by
  rw [zcount, rep_drop_singleton, leadingCount_rep]

theorem fcount_rep (x : Byte) (n i : Nat) : fcount (rep [x] n) i = if x = 0xFF#8 then n - i else 0 := by
  rw [fcount, rep_drop_singleton, leadingCount_rep]

theorem pcount_rep (x : Byte) (n i : Nat) : pcount (rep [x] n) i = (n - i) / 2 := by
  rcases Nat.lt_or_ge (n - i) 2 with hshort | hlong
  · rw [pcount_eq_zero (by rw [length_rep_singleton]; omega)]
    omega
  · obtain ⟨m, hm⟩ := Nat.exists_eq_add_of_le' hlong
    have hd : (rep [x] n).drop i = x :: x :: rep [x] m := by rw [rep_drop_singleton, hm]; rfl
    rw [pcount_of_drop_eq hd, rep_drop_singleton, leadingPairs_rep]

/-- R255: where no run qualifies at any position, every token is a literal. -/
theorem compress_literals_of_run_free {b : List Byte}
    (h : ∀ i < b.length, zcount b i < 4 ∧ fcount b i < 4 ∧ pcount b i < 4) :
    ∀ t ∈ compress b, ∃ x, t = .literal x := by
  intro t ht
  obtain ⟨i, hi⟩ := nextToken_of_mem_compress ht
  have hlt := lt_length_of_nextToken hi
  obtain ⟨hz, hf, hp⟩ := h i hlt
  rw [selectionFollowsPriority b i hlt, if_neg (Nat.not_le.2 hz), if_neg (Nat.not_le.2 hf),
    if_neg (Nat.not_le.2 hp)] at hi
  exact ⟨_, (Option.some.inj hi).symm⟩

/-- R255: a run-free buffer of `L` bytes encodes to `L + 4` code points. -/
theorem encodeCall_of_run_free {b : List Byte} (hfits : b.length < 2 ^ 48)
    (h : ∀ i < b.length, zcount b i < 4 ∧ fcount b i < 4 ∧ pcount b i < 4) :
    ∃ c, encodeCall b = some c ∧ c.length = b.length + 4 :=
  ⟨_, encodeCall_of_fits hfits,
    ((encodedLengthBounds b _ (encodeCall_of_fits hfits)).2.2).2 (compress_literals_of_run_free h)⟩

theorem eq_map_literal_of_literals {ts : List Token} (h : ∀ t ∈ ts, ∃ x, t = .literal x) :
    ts = (decompress ts).map .literal := by
  induction ts with
  | nil => rfl
  | cons t ts ih =>
    obtain ⟨⟨x, rfl⟩, hts⟩ := List.forall_mem_cons.1 h
    rw [decompress_cons, List.map_append, ← ih hts]
    rfl

/-- The first token of a buffer; the tokens after it cover the bytes it does not. -/
theorem compress_eq_cons {b : List Byte} {t : Token} (h : nextToken b 0 = some t) :
    ∃ ts, compress b = t :: ts ∧ t.byteLen + (ts.map Token.byteLen).sum = b.length := by
  obtain ⟨n, hn⟩ := Nat.exists_eq_add_of_lt (lt_length_of_nextToken h)
  have hcons : compress b = t :: compressFrom b n (0 + t.byteLen) := by
    rw [compress, hn, Nat.zero_add, compressFrom, h]
  refine ⟨_, hcons, ?_⟩
  rw [← compress_byteLen_sum b, hcons]
  rfl

/-- R255: a buffer whose first token is a run that leaves fewer than four bytes: too few for a run, so they are
literals. -/
theorem encodeCall_of_first_run {b : List Byte} {k : Kind} {len : Nat} (hfits : b.length < 2 ^ 48)
    (h : nextToken b 0 = some (.run k len)) (hleft : b.length < (Token.run k len).byteLen + 4) :
    ∃ c, encodeCall b = some c ∧
      c.length = 4 + (Token.run k len).cost + (b.length - (Token.run k len).byteLen) ∧ c.length < b.length + 4 := by
  refine ⟨_, encodeCall_of_fits hfits, ?_⟩
  obtain ⟨ts, hcons, hsum⟩ := compress_eq_cons h
  have hlit : ∀ u ∈ ts, u.cost = u.byteLen := by
    intro u hu
    have hmem : u ∈ compress b := hcons ▸ List.mem_cons_of_mem _ hu
    have hle := List.le_sum_of_mem (List.mem_map_of_mem (f := Token.byteLen) hu)
    cases u with
    | literal x => rfl
    | run k' len' =>
      have hlen := compress_run_length hmem
      have hbytes := run_length_le_byteLen k' len'
      omega
  have hlen := nextToken_run_length h
  have hcost := run_cost_lt_byteLen k (len := len) (by omega)
  rw [length_encodeCall (encodeCall_of_fits hfits), hcons, List.map_cons, List.sum_cons, List.map_congr_left hlit]
  omega

/-- The choice in a buffer of one byte repeated (R135). -/
theorem nextToken_rep {x : Byte} {L : Nat} (hL : 0 < L) :
    nextToken (rep [x] L) 0 = some (
      if x = 0x00#8 ∧ 4 ≤ L then .run .zeroRun L
      else if x = 0xFF#8 ∧ 4 ≤ L then .run .ffRun L
      else if 8 ≤ L then .run (.patternRun x x) (L / 2)
      else .literal x) := by
  have hlen := length_rep_singleton x L
  have hpair : 4 ≤ L / 2 ↔ 8 ≤ L := by omega
  have hcount : ∀ v : Byte, (4 ≤ if x = v then L else 0) ↔ x = v ∧ 4 ≤ L := fun v => by split <;> simp [*]
  have hsecond : 8 ≤ L → (rep [x] L).getD 1 0 = x := fun h8 => by
    rw [rep_singleton, List.getD_replicate]
    omega
  rw [selectionFollowsPriority _ 0 (by omega), zcount_rep, fcount_rep, pcount_rep]
  simp only [Nat.sub_zero, hcount, hpair, rep_singleton, List.getElem_replicate, Nat.zero_add] at hsecond ⊢
  split_ifs with hz hz0 hf hf1 h8
  · rfl
  · exact absurd hz.1 hz0
  · rfl
  · exact absurd hf.1 hf1
  · rw [hsecond h8]
  · rfl

/-- Settles O24: a run-free buffer is literals; a repeated byte is one run and at most one literal, or run-free. -/
theorem compressionIsMonotone : Obligations.CompressionIsMonotone := by
  refine ⟨fun b hfits h => encodeCall_of_run_free hfits h, fun L hL hfits x hx => ?_, fun L hL hfits x h0 h1 => ?_,
    fun L hL hL7 x h0 h1 => ?_⟩
  · have hlen := length_rep_singleton x L
    have hcost : max 1 (pieces L) = (L + 1022) / 1023 := pieces_of_pos (by omega)
    have htoken := nextToken_rep (x := x) (L := L) (by omega)
    obtain ⟨k, hk, hcost, hbytes⟩ : ∃ k, nextToken (rep [x] L) 0 = some (.run k L) ∧
        (Token.run k L).cost = (L + 1022) / 1023 ∧ (Token.run k L).byteLen = L := by
      rcases hx with rfl | rfl
      · exact ⟨.zeroRun, by rw [htoken, if_pos ⟨rfl, hL⟩], hcost, rfl⟩
      · exact ⟨.ffRun, by rw [htoken, if_neg (by simp), if_pos ⟨rfl, hL⟩], hcost, rfl⟩
    obtain ⟨c, hc, hclen, hlt⟩ := encodeCall_of_first_run (by omega) hk (by omega)
    exact ⟨c, hc, by omega, by omega⟩
  · have hlen := length_rep_singleton x L
    have hcost : (Token.run (.patternRun x x) (L / 2)).cost = 3 * ((L / 2 + 1022) / 1023) :=
      congrArg (3 * ·) (pieces_of_pos (by omega))
    have hbytes : (Token.run (.patternRun x x) (L / 2)).byteLen = 2 * (L / 2) := rfl
    have hk : nextToken (rep [x] L) 0 = some (.run (.patternRun x x) (L / 2)) := by
      rw [nextToken_rep (by omega), if_neg fun h => h0 h.1, if_neg fun h => h1 h.1, if_pos hL]
    obtain ⟨c, hc, hclen, hlt⟩ := encodeCall_of_first_run (by omega) hk (by omega)
    exact ⟨c, hc, by omega, by omega⟩
  · have hlen := length_rep_singleton x L
    have hfree : ∀ i < (rep [x] L).length,
        zcount (rep [x] L) i < 4 ∧ fcount (rep [x] L) i < 4 ∧ pcount (rep [x] L) i < 4 := by
      intro i _
      rw [zcount_rep, fcount_rep, pcount_rep, if_neg h0, if_neg h1]
      omega
    refine ⟨?_, ?_⟩
    · rw [eq_map_literal_of_literals (compress_literals_of_run_free hfree), decompress_compress]
      simp [rep_singleton]
    · have hcode := encodeCall_of_run_free (by omega) hfree
      rwa [hlen] at hcode

end Sys2Proof.Machine

/-! SUPPORT. One body symbol changed (44_orchestration.md R256 (3)). The bytes a body stands for decide the call,
since the header is unchanged. A symbol stands at a token's first index or is an operand of a PRUN. At a first index
the cases are what the old and the new symbol are: a one-symbol token, a PRUN head, a reserved symbol. That the runs
emitted are not empty, are maximal and are of no pair (0x00, 0x00) or (0xFF, 0xFF) leaves the six replacements R256
lists. -/

namespace Sys2Proof.Machine

/-! ### The bytes a body stands for, and the one symbol that is changed (R256 (3)) -/

/-- R241: the bytes a body unpacks and expands to. -/
def bodyBytes (body : List Sym) : Except FailureKind (List Byte) := (unpack body).map decompress

theorem map_eq_ok_iff {ε α β : Type} {r : Except ε α} {f : α → β} {y : β} :
    r.map f = .ok y ↔ ∃ x, r = .ok x ∧ f x = y := by
  cases r <;> simp [Except.map]

theorem bodyBytes_eq_ok_iff {body : List Sym} {out : List Byte} :
    bodyBytes body = .ok out ↔ ∃ ts, unpack body = .ok ts ∧ decompress ts = out :=
  map_eq_ok_iff

/-- R241, R243: under the header of a buffer's length, a decode call answers the buffer when the body stands for it. -/
theorem decodeCall_eq_ok_iff_bodyBytes {b : List Byte} (hfits : b.length < 2 ^ 48) (body : List Sym) :
    decodeCall (carried (writeHeader (BitVec.ofNat 48 b.length) ++ body)) = .ok b ↔ bodyBytes body = .ok b := by
  rw [decodeCall_carried, toNat_ofNat_length hfits, bodyBytes]
  cases unpack body with
  | error k => simp [Except.bind, Except.map]
  | ok ts =>
    simp only [Except.bind, Except.map, Except.ok.injEq]
    split_ifs with hlen
    · rw [Except.ok.injEq]
    · exact iff_of_false nofun fun heq => hlen (congrArg List.length heq)

theorem decodeCall_carried_cases (n : Len48) (body : List Sym) :
    decodeCall (carried (writeHeader n ++ body)) = .error .malformedBody ∨
      decodeCall (carried (writeHeader n ++ body)) = .error .lengthMismatch ∨
      ∃ b, decodeCall (carried (writeHeader n ++ body)) = .ok b := by
  rw [decodeCall_carried]
  cases hbody : unpack body with
  | error k =>
    rw [unpack_error hbody]
    exact .inl rfl
  | ok ts =>
    simp only [Except.bind]
    split_ifs
    · exact .inr (.inr ⟨_, rfl⟩)
    · exact .inr (.inl rfl)

/-- R197: packed tokens at the front of a body are read off, and the Unpacker goes on behind them. -/
theorem unpack_flatMap_pack_append {ts : List Token} (h : ∀ t ∈ ts, t.Fits) (rest : List Sym) :
    unpack (ts.flatMap Token.pack ++ rest) = (unpack rest).map (ts ++ ·) := by
  induction ts with
  | nil => cases h : unpack rest <;> simp [Except.map, h]
  | cons t ts ih =>
    obtain ⟨ht, hts⟩ := List.forall_mem_cons.1 h
    rw [List.flatMap_cons, List.append_assoc, unpack_pack_append ht, ih hts]
    cases unpack rest <;> rfl

theorem bodyBytes_flatMap_pack {ts : List Token} (h : ∀ t ∈ ts, t.Fits) :
    bodyBytes (ts.flatMap Token.pack) = .ok (decompress ts) :=
  bodyBytes_eq_ok_iff.2 ⟨ts, unpack_flatMap_pack h, rfl⟩

/-- The tokens in front of a change give their bytes either way. -/
theorem bodyBytes_flatMap_pack_append_iff {ts : List Token} (h : ∀ t ∈ ts, t.Fits) {rest : List Sym} {out : List Byte} :
    bodyBytes (ts.flatMap Token.pack ++ rest) = .ok (decompress ts ++ out) ↔ bodyBytes rest = .ok out := by
  rw [bodyBytes, unpack_flatMap_pack_append h, bodyBytes]
  cases unpack rest <;> simp [Except.map, decompress_append]

/-- The byte and the number of times a one-symbol token stands for it; nothing for the other instructions. -/
def byteRunOf : Instr → Option (Byte × Nat)
  | .lit b => some (b, 1)
  | .zrun len => some (0x00#8, len.toNat)
  | .frun len => some (0xFF#8, len.toNat)
  | _ => none

/-- The one-symbol tokens that stand for `n` bytes `v`. -/
theorem byteRunOf_cases {i : Instr} {v : Byte} {n : Nat} (h : byteRunOf i = some (v, n)) :
    (i = .lit v ∧ n = 1) ∨ (∃ len, i = .zrun len ∧ v = 0x00#8 ∧ n = len.toNat) ∨
      ∃ len, i = .frun len ∧ v = 0xFF#8 ∧ n = len.toNat := by
  cases i with
  | lit b => cases h; exact .inl ⟨rfl, rfl⟩
  | zrun len => cases h; exact .inr (.inl ⟨len, rfl, rfl, rfl⟩)
  | frun len => cases h; exact .inr (.inr ⟨len, rfl, rfl, rfl⟩)
  | _ => cases h

theorem bodyBytes_byteRun {w : Sym} {v : Byte} {n : Nat} (h : byteRunOf (decodeToken w) = some (v, n))
    (rest : List Sym) : bodyBytes (w :: rest) = (bodyBytes rest).map (rep [v] n ++ ·) := by
  rcases byteRunOf_cases h with ⟨hw, rfl⟩ | ⟨len, hw, rfl, rfl⟩ | ⟨len, hw, rfl, rfl⟩
  · rw [bodyBytes, unpack_lit hw, bodyBytes]
    cases unpack rest <;> rfl
  · rw [bodyBytes, unpack_zrun hw, bodyBytes]
    cases unpack rest <;> rfl
  · rw [bodyBytes, unpack_frun hw, bodyBytes]
    cases unpack rest <;> rfl

/-- R191: what a symbol at a token's first index can be. -/
theorem decodeToken_cases (w : Sym) :
    (∃ v n, byteRunOf (decodeToken w) = some (v, n)) ∨ (∃ len, decodeToken w = .prun len) ∨
      decodeToken w ∈ [Instr.rsv100 (symByte w), .rsv200 (symByte w), .rsv300 (symByte w)] := by
  unfold decodeToken
  split_ifs <;> simp [byteRunOf]

theorem decodeToken_injective {w x : Sym} (h : decodeToken w = decodeToken x) : w = x := by
  rw [← encodeSym_decodeToken w, h, encodeSym_decodeToken]

/-- The six replacements of R256 by the instructions they replace. -/
theorem aliasing_iff {x y : Sym} : aliasing x y = true ↔
    (decodeToken x = .lit 0x00#8 ∧ decodeToken y = .zrun 1#10) ∨
    (decodeToken x = .zrun 1#10 ∧ decodeToken y = .lit 0x00#8) ∨
    (decodeToken x = .lit 0xFF#8 ∧ decodeToken y = .frun 1#10) ∨
    (decodeToken x = .frun 1#10 ∧ decodeToken y = .lit 0xFF#8) ∨
    (decodeToken x = .prun 1#10 ∧ (decodeToken y = .zrun 0#10 ∨ decodeToken y = .frun 0#10)) := by
  have heq : ∀ (w v : Sym) (i : Instr), decodeToken v = i → (w = v ↔ decodeToken w = i) := by
    rintro w v _ rfl
    exact ⟨congrArg decodeToken, decodeToken_injective⟩
  simp only [aliasing, Bool.or_eq_true, Bool.and_eq_true, beq_iff_eq, or_assoc,
    fun w => heq w 0x000#12 (.lit 0x00#8) rfl, fun w => heq w 0x401#12 (.zrun 1#10) rfl,
    fun w => heq w 0x0FF#12 (.lit 0xFF#8) rfl, fun w => heq w 0x801#12 (.frun 1#10) rfl,
    fun w => heq w 0xC01#12 (.prun 1#10) rfl, fun w => heq w 0x400#12 (.zrun 0#10) rfl,
    fun w => heq w 0x800#12 (.frun 0#10) rfl]

/-! ### What stands in an encoded body (R181, R143) -/

/-- R143 (4): `u` does not go on with the run that `t` is. -/
def RunStopsAt (t u : Token) : Prop := ∀ k len v, t = .run k len → u = .literal v → k.unit ≠ [v]

theorem compress_runs_stop (b : List Byte) : (compress b).IsChain RunStopsAt := by
  rw [List.isChain_iff_forall_rel_of_append_cons_cons]
  rintro t u before after h k len v rfl rfl hunit
  have hmax := (emittedRunsAreMaximal b before _ k len h).1
  rw [hunit] at hmax
  exact hmax rfl

theorem run_of_mem_split {t : Token} {k : Kind} {m : Nat} (h : .run k m ∈ t.split) :
    ∃ len, t = .run k len ∧ (1 ≤ len → 1 ≤ m) := by
  cases t with
  | literal x => cases List.mem_singleton.1 h
  | run k' len =>
    rcases Nat.eq_zero_or_pos len with rfl | hpos
    · cases List.mem_singleton.1 h
      exact ⟨0, rfl, id⟩
    rw [Token.split_run_of_pos k' hpos] at h
    rcases List.mem_append.1 h with hfull | hlast
    · cases List.eq_of_mem_replicate hfull
      exact ⟨len, rfl, fun _ => by decide⟩
    · split_ifs at hlast with hrem
      · cases List.mem_singleton.1 hlast
        exact ⟨len, rfl, fun _ => Nat.pos_of_ne_zero hrem⟩
      · cases hlast

theorem literal_of_mem_split {t : Token} {v : Byte} (h : .literal v ∈ t.split) : t = .literal v := by
  cases t with
  | literal x => exact (List.mem_singleton.1 h).symm
  | run k len =>
    obtain ⟨_, ⟨⟩⟩ := eq_run_of_mem_split h

theorem token_split_ne_nil (t : Token) : t.split ≠ [] := by
  cases t with
  | literal x => exact nofun
  | run k len =>
    have hlen := length_split_run k len
    intro hnil
    rw [hnil] at hlen
    simp at hlen
    omega

/-- A literal does not stand among the pieces of a run, so no piece but the last is followed by one. -/
theorem token_split_runs_stop (t : Token) : t.split.IsChain RunStopsAt := by
  rw [List.isChain_iff_forall_rel_of_append_cons_cons]
  rintro u x before after h k len v rfl rfl
  have hmem : .run k len ∈ t.split ∧ .literal v ∈ t.split := by rw [h]; simp
  obtain ⟨_, hrun, -⟩ := run_of_mem_split hmem.1
  rw [literal_of_mem_split hmem.2] at hrun
  cases hrun

theorem split_runs_stop {ts : List Token} (h : ts.IsChain RunStopsAt) : (split ts).IsChain RunStopsAt := by
  have hnil : [] ∉ ts.map Token.split := fun hmem => by
    obtain ⟨t, -, ht⟩ := List.mem_map.1 hmem
    exact token_split_ne_nil t ht
  rw [split, List.flatMap_def, List.isChain_flatten hnil, List.isChain_map]
  refine ⟨List.forall_mem_map.2 fun t _ => token_split_runs_stop t, h.imp fun t u htu x hx y hy => ?_⟩
  rintro k len v rfl rfl
  obtain ⟨_, hrun, -⟩ := run_of_mem_split (List.mem_of_mem_getLast? hx)
  exact htu k _ v hrun (literal_of_mem_split (List.mem_of_mem_head? hy))

/-- What R143 says of the tokens an encoded body packs, cut into pieces. -/
theorem split_compress_run {b : List Byte} {before after : List Token} {k : Kind} {m : Nat}
    (h : split (compress b) = before ++ .run k m :: after) :
    1 ≤ m ∧ k ≠ .patternRun 0x00#8 0x00#8 ∧ k ≠ .patternRun 0xFF#8 0xFF#8 ∧
      ∀ v tail, after = .literal v :: tail → k.unit ≠ [v] := by
  have hmem : .run k m ∈ split (compress b) := by rw [h]; simp
  obtain ⟨t, ht, htm⟩ := List.mem_flatMap.1 hmem
  obtain ⟨len, rfl, hpos⟩ := run_of_mem_split htm
  obtain ⟨i, hi⟩ := nextToken_of_mem_compress ht
  have hlen := nextToken_run_length hi
  obtain ⟨h0, h1⟩ := nextToken_pair_ne hi
  refine ⟨hpos (by omega), h0, h1, fun v tail hafter => ?_⟩
  rw [hafter] at h
  exact List.isChain_iff_forall_rel_of_append_cons_cons.1 (split_runs_stop (compress_runs_stop b)) h k m v rfl rfl

/-! ### The place of a symbol in a packed body (R97, R182 to R185) -/

/-- A symbol of a packed body stands in the symbols of one of its tokens. -/
theorem flatMap_pack_eq_append_cons {ts : List Token} {front rest : List Sym} {x : Sym}
    (h : ts.flatMap Token.pack = front ++ x :: rest) :
    ∃ before t after u v, ts = before ++ t :: after ∧ t.pack = u ++ x :: v ∧
      front = before.flatMap Token.pack ++ u ∧ rest = v ++ after.flatMap Token.pack := by
  induction ts generalizing front with
  | nil => simp at h
  | cons t ts ih =>
    rw [List.flatMap_cons, List.append_eq_append_iff] at h
    rcases h with ⟨l, rfl, hrest⟩ | ⟨l, hpack, hrest⟩
    · obtain ⟨before, t', after, u, v, rfl, hpack, rfl, rfl⟩ := ih hrest
      exact ⟨t :: before, t', after, u, v, rfl, hpack, by simp, rfl⟩
    · cases l with
      | nil =>
        obtain ⟨before, t', after, u, v, rfl, hpack', hu, rfl⟩ := ih (front := []) hrest.symm
        obtain ⟨hb, rfl⟩ := List.append_eq_nil_iff.1 hu.symm
        exact ⟨t :: before, t', after, [], v, rfl, hpack', by simp [hb, hpack], rfl⟩
      | cons y l =>
        cases hrest
        exact ⟨[], t, ts, front, l, rfl, hpack, by simp, rfl⟩

/-- A PRUN cut short behind its head or its first operand is refused (R195). -/
theorem unpack_prun_cut {n : RunLen} {l : List Sym} (h : l.length < 2) :
    unpack (encodeSym (.prun n) :: l) = .error .malformedBody := by
  rcases unpack_prun_cases (decodeToken_encodeSym (i := .prun n) rfl) l with herr | ⟨p0, p1, tail, rfl⟩
  · exact herr
  · simp at h

/-- R195, R198: the operands of a PRUN whose run has a unit are read off the bytes it stands for. -/
theorem prun_operands_of_bodyBytes {n : RunLen} {p0 p1 : Byte} {a c : Sym} {after : List Token}
    (hn : 1 ≤ n.toNat) (hafter : ∀ t ∈ after, t.Fits)
    (h : bodyBytes (encodeSym (.prun n) :: a :: c :: after.flatMap Token.pack) =
      .ok (rep [p0, p1] n.toNat ++ decompress after)) :
    a = encodeSym (.pat0 p0) ∧ c = encodeSym (.pat1 p1) := by
  have hdec := decodeToken_encodeSym (i := .prun n) rfl
  obtain ⟨ts, hts, hbytes⟩ := bodyBytes_eq_ok_iff.1 h
  rcases unpack_prun_cases hdec (a :: c :: after.flatMap Token.pack) with herr | ⟨q0, q1, tail, heq⟩
  · rw [herr] at hts
    cases hts
  · obtain ⟨rfl, rfl, rfl⟩ : a = _ ∧ c = _ ∧ after.flatMap Token.pack = tail := by simpa using heq
    rw [unpack_prun hdec (patternByte_pat0 q0) (patternByte_pat1 q1), unpack_flatMap_pack hafter] at hts
    cases hts
    have hrep : rep [q0, q1] n.toNat = rep [p0, p1] n.toNat := List.append_cancel_right hbytes
    obtain ⟨m, hm⟩ := Nat.exists_eq_add_of_le' hn
    rw [hm] at hrep
    obtain ⟨rfl, rfl, -⟩ : q0 = p0 ∧ q1 = p1 ∧ _ := by simpa using hrep
    exact ⟨rfl, rfl⟩

/-! ### The first symbol of a token changed (R256 (3)) -/

theorem runLen_eq_one {len : RunLen} (h : 1 = len.toNat) : len = 1#10 :=
  BitVec.eq_of_toNat_eq h.symm

/-- R256: of two one-symbol tokens that differ, those that stand for the same bytes are the listed pairs. -/
theorem byteRun_eq_iff_aliasing {x y : Sym} {v : Byte} {n : Nat} (hx : byteRunOf (decodeToken x) = some (v, n))
    (hne : x ≠ y) : byteRunOf (decodeToken y) = some (v, n) ↔ aliasing x y = true := by
  have hdec : decodeToken x ≠ decodeToken y := fun h => hne (decodeToken_injective h)
  rw [aliasing_iff]
  constructor
  · intro hy
    rcases byteRunOf_cases hx with ⟨hi, rfl⟩ | ⟨len, hi, rfl, rfl⟩ | ⟨len, hi, rfl, rfl⟩
    · rcases byteRunOf_cases hy with ⟨hj, -⟩ | ⟨m, hj, rfl, hm⟩ | ⟨m, hj, rfl, hm⟩
      · exact absurd (hi.trans hj.symm) hdec
      · exact .inl ⟨hi, runLen_eq_one hm ▸ hj⟩
      · exact .inr (.inr (.inl ⟨hi, runLen_eq_one hm ▸ hj⟩))
    · rcases byteRunOf_cases hy with ⟨hj, hm⟩ | ⟨m, hj, -, hm⟩ | ⟨m, -, hv, -⟩
      · exact .inr (.inl ⟨runLen_eq_one hm.symm ▸ hi, hj⟩)
      · exact absurd (hi.trans (BitVec.eq_of_toNat_eq hm ▸ hj.symm)) hdec
      · cases hv
    · rcases byteRunOf_cases hy with ⟨hj, hm⟩ | ⟨m, -, hv, -⟩ | ⟨m, hj, -, hm⟩
      · exact .inr (.inr (.inr (.inl ⟨runLen_eq_one hm.symm ▸ hi, hj⟩)))
      · cases hv
      · exact absurd (hi.trans (BitVec.eq_of_toNat_eq hm ▸ hj.symm)) hdec
  · rintro (⟨hi, hj⟩ | ⟨hi, hj⟩ | ⟨hi, hj⟩ | ⟨hi, hj⟩ | ⟨hi, hj⟩)
    · rw [hi] at hx; cases hx; rw [hj]; rfl
    · rw [hi] at hx; cases hx; rw [hj]; rfl
    · rw [hi] at hx; cases hx; rw [hj]; rfl
    · rw [hi] at hx; cases hx; rw [hj]; rfl
    · rw [hi] at hx; cases hx

/-- R256: a one-symbol token in place of a PRUN head is listed when it stands for nothing and the head for one pair. -/
theorem aliasing_prun_byteRun_iff {x y : Sym} {len : RunLen} {v : Byte} {n : Nat} (hx : decodeToken x = .prun len)
    (hy : byteRunOf (decodeToken y) = some (v, n)) : aliasing x y = true ↔ n = 0 ∧ len.toNat = 1 := by
  rw [aliasing_iff, hx]
  constructor
  · rintro (⟨⟨⟩, -⟩ | ⟨⟨⟩, -⟩ | ⟨⟨⟩, -⟩ | ⟨⟨⟩, -⟩ | ⟨hlen, hj | hj⟩)
    · cases hlen; rw [hj] at hy; cases hy; exact ⟨rfl, rfl⟩
    · cases hlen; rw [hj] at hy; cases hy; exact ⟨rfl, rfl⟩
  · rintro ⟨rfl, hlen⟩
    obtain rfl := runLen_eq_one hlen.symm
    rcases byteRunOf_cases hy with ⟨-, h⟩ | ⟨m, hj, -, hm⟩ | ⟨m, hj, -, hm⟩
    · cases h
    · obtain rfl : m = 0#10 := BitVec.eq_of_toNat_eq hm.symm
      exact .inr (.inr (.inr (.inr ⟨rfl, .inl hj⟩)))
    · obtain rfl : m = 0#10 := BitVec.eq_of_toNat_eq hm.symm
      exact .inr (.inr (.inr (.inr ⟨rfl, .inr hj⟩)))

theorem not_aliasing_prun {x y : Sym} {m : RunLen} (hy : decodeToken y = .prun m) : ¬aliasing x y = true := by
  rw [aliasing_iff, hy]
  rintro (⟨-, ⟨⟩⟩ | ⟨-, ⟨⟩⟩ | ⟨-, ⟨⟩⟩ | ⟨-, ⟨⟩⟩ | ⟨-, ⟨⟨⟩⟩ | ⟨⟨⟩⟩⟩)

theorem not_aliasing_reserved {x y : Sym} {r : Byte} (hy : decodeToken y ∈ [Instr.rsv100 r, .rsv200 r, .rsv300 r]) :
    ¬aliasing x y = true := by
  rw [aliasing_iff]
  simp only [List.mem_cons, List.not_mem_nil, or_false] at hy
  rcases hy with hy | hy | hy <;> simp [hy]

theorem bodyBytes_reserved {y : Sym} {r : Byte} (hy : decodeToken y ∈ [Instr.rsv100 r, .rsv200 r, .rsv300 r])
    (rest : List Sym) : bodyBytes (y :: rest) = .error .malformedBody := by
  rw [bodyBytes, unpack_reserved hy]
  rfl

/-- R10: a byte repeated once at least says its byte and how often. -/
theorem rep_singleton_inj {v w : Byte} {m n : Nat} (hn : 1 ≤ n) (h : rep [w] m = rep [v] n) : w = v ∧ m = n := by
  have hlen := congrArg List.length h
  rw [length_rep_singleton, length_rep_singleton] at hlen
  obtain ⟨k, rfl⟩ := Nat.exists_eq_add_of_le' hn
  subst hlen
  exact ⟨(List.cons.inj h).1, rfl⟩

/-- Where the changed symbol was a one-symbol token and is one still: the listed pairs of them. -/
theorem bodyBytes_byteRun_for_byteRun {x y : Sym} {v w : Byte} {m n : Nat} {rest : List Sym} {out : List Byte}
    (hx : byteRunOf (decodeToken x) = some (v, n)) (hn : 1 ≤ n) (hne : x ≠ y)
    (hy : byteRunOf (decodeToken y) = some (w, m)) (hrest : bodyBytes rest = .ok out) :
    bodyBytes (y :: rest) = .ok (rep [v] n ++ out) ↔ aliasing x y = true := by
  rw [← byteRun_eq_iff_aliasing hx hne, hy, bodyBytes_byteRun hy, hrest, Except.map, Except.ok.injEq,
    List.append_cancel_right_eq, Option.some.injEq, Prod.mk.injEq]
  exact ⟨rep_singleton_inj hn, by rintro ⟨rfl, rfl⟩; rfl⟩

/-- A PRUN's operand symbols, read as tokens, are the two literals (R93, R95). -/
theorem unpack_pattern_bytes (p0 p1 : Byte) (tail : List Sym) :
    unpack (encodeSym (.pat0 p0) :: encodeSym (.pat1 p1) :: tail) =
      (unpack tail).map fun ts => .literal p0 :: .literal p1 :: ts := by
  have h0 : unpack (encodeSym (.pat0 p0) :: encodeSym (.pat1 p1) :: tail) = _ :=
    unpack_lit (decodeToken_encodeSym (i := .lit p0) rfl) (encodeSym (.pat1 p1) :: tail)
  have h1 : unpack (encodeSym (.pat1 p1) :: tail) = _ := unpack_lit (decodeToken_encodeSym (i := .lit p1) rfl) tail
  rw [h0, h1]
  cases unpack tail <;> rfl

/-- Where a PRUN head stands for a one-symbol token it takes two literals as its pair, and the pairs cannot make up the
bytes of the token and the literals unless the token is a run that goes on with the first of them. -/
theorem bodyBytes_prun_for_byteRun {y : Sym} {v : Byte} {m : RunLen} {n : Nat} {after : List Token}
    (hafter : ∀ t ∈ after, t.Fits) (hn : 1 ≤ n) (hy : decodeToken y = .prun m)
    (hstop : n = 1 ∨ ∀ u tail, after = .literal u :: tail → u ≠ v) :
    bodyBytes (y :: after.flatMap Token.pack) ≠ .ok (rep [v] n ++ decompress after) := by
  intro h
  obtain ⟨ts, hts, hbytes⟩ := bodyBytes_eq_ok_iff.1 h
  rcases unpack_prun_cases hy (after.flatMap Token.pack) with herr | ⟨p0, p1, tail, heq⟩
  · rw [herr] at hts
    cases hts
  · have hunpack := unpack_flatMap_pack hafter
    rw [heq, unpack_pattern_bytes] at hunpack
    obtain ⟨us, htail, rfl⟩ := map_eq_ok_iff.1 hunpack
    rw [heq, unpack_prun hy (patternByte_pat0 p0) (patternByte_pat1 p1), htail] at hts
    cases hts
    have hpairs : rep [p0, p1] m.toNat ++ decompress us = rep [v] n ++ [p0, p1] ++ decompress us := by
      rw [List.append_assoc]
      exact hbytes
    replace hpairs := List.append_cancel_right hpairs
    have hlen := congrArg List.length hpairs
    simp only [rep_length, List.length_append, List.length_cons, List.length_nil] at hlen
    obtain ⟨j, hj⟩ := Nat.exists_eq_add_of_le' (show 1 ≤ m.toNat by omega)
    obtain ⟨k, rfl⟩ := Nat.exists_eq_add_of_le' hn
    rw [hj] at hpairs
    have hhead : p0 = v := (List.cons.inj hpairs).1
    rcases hstop with h1 | hstop
    · omega
    · exact hstop p0 _ rfl hhead

/-- Where a one-symbol token stands for a PRUN head the operands become literals: the same bytes when the token stands
for nothing and the run was one pair, since a run's pair is not the byte of a run token twice. -/
theorem bodyBytes_byteRun_for_prun {y : Sym} {v p0 p1 : Byte} {len : RunLen} {n : Nat} {after : List Token}
    (hafter : ∀ t ∈ after, t.Fits) (hlen : 1 ≤ len.toNat) (h0 : ¬(p0 = 0x00#8 ∧ p1 = 0x00#8))
    (h1 : ¬(p0 = 0xFF#8 ∧ p1 = 0xFF#8)) (hy : byteRunOf (decodeToken y) = some (v, n)) :
    bodyBytes (y :: encodeSym (.pat0 p0) :: encodeSym (.pat1 p1) :: after.flatMap Token.pack) =
      .ok (rep [p0, p1] len.toNat ++ decompress after) ↔ n = 0 ∧ len.toNat = 1 := by
  have hrest : bodyBytes (encodeSym (.pat0 p0) :: encodeSym (.pat1 p1) :: after.flatMap Token.pack) =
      .ok ([p0, p1] ++ decompress after) := by
    rw [bodyBytes, unpack_pattern_bytes, unpack_flatMap_pack hafter]
    rfl
  rw [bodyBytes_byteRun hy, hrest, Except.map, Except.ok.injEq, ← List.append_assoc, List.append_cancel_right_eq]
  constructor
  · intro hpairs
    have hcount := congrArg List.length hpairs
    simp only [rep_length, List.length_append, List.length_cons, List.length_nil] at hcount
    by_contra hother
    obtain ⟨j, hj⟩ := Nat.exists_eq_add_of_le' (show 1 ≤ len.toNat by omega)
    obtain ⟨k, rfl⟩ := Nat.exists_eq_add_of_le' (show 2 ≤ n by omega)
    rw [hj] at hpairs
    obtain ⟨hp0, htail⟩ := List.cons.inj hpairs
    have hp1 := (List.cons.inj htail).1
    rcases byteRunOf_cases hy with ⟨-, hk⟩ | ⟨m, -, rfl, -⟩ | ⟨m, -, rfl, -⟩
    · omega
    · exact h0 ⟨hp0.symm, hp1.symm⟩
    · exact h1 ⟨hp0.symm, hp1.symm⟩
  · rintro ⟨rfl, hone⟩
    rw [hone]
    rfl

/-- A PRUN head for a PRUN head: only the same length gives as many bytes. -/
theorem bodyBytes_prun_for_prun {y : Sym} {p0 p1 : Byte} {len m : RunLen} {after : List Token}
    (hafter : ∀ t ∈ after, t.Fits) (hne : encodeSym (.prun len) ≠ y) (hy : decodeToken y = .prun m) :
    bodyBytes (y :: encodeSym (.pat0 p0) :: encodeSym (.pat1 p1) :: after.flatMap Token.pack) ≠
      .ok (rep [p0, p1] len.toNat ++ decompress after) := by
  intro h
  obtain ⟨ts, hts, hbytes⟩ := bodyBytes_eq_ok_iff.1 h
  rw [unpack_prun hy (patternByte_pat0 p0) (patternByte_pat1 p1), unpack_flatMap_pack hafter] at hts
  cases hts
  have hpairs : rep [p0, p1] m.toNat = rep [p0, p1] len.toNat := List.append_cancel_right hbytes
  have hcount := congrArg List.length hpairs
  simp only [rep_length, List.length_cons, List.length_nil] at hcount
  obtain rfl : m = len := BitVec.eq_of_toNat_eq (by omega)
  exact hne (by rw [← hy, encodeSym_decodeToken])

/-- The place of the changed symbol: a token's first index, where the symbols before it unpack, or an operand of a PRUN,
where they do not. -/
theorem symbol_place {ts : List Token} {front rest : List Sym} {x : Sym} (hfits : ∀ t ∈ ts, t.Fits)
    (h : ts.flatMap Token.pack = front ++ x :: rest) :
    (∃ before t after v, ts = before ++ t :: after ∧ t.pack = x :: v ∧ front = before.flatMap Token.pack ∧
      rest = v ++ after.flatMap Token.pack) ∨
    (∃ before p0 p1 len after u v, ts = before ++ .run (.patternRun p0 p1) len.toNat :: after ∧
      encodeSym (.pat0 p0) :: [encodeSym (.pat1 p1)] = u ++ x :: v ∧
      front = before.flatMap Token.pack ++ encodeSym (.prun len) :: u ∧ rest = v ++ after.flatMap Token.pack) := by
  obtain ⟨before, t, after, u, v, rfl, hpack, rfl, rfl⟩ := flatMap_pack_eq_append_cons h
  cases u with
  | nil => exact .inl ⟨before, t, after, v, rfl, hpack, List.append_nil _, rfl⟩
  | cons w u =>
    right
    have hlong : 2 ≤ t.pack.length := by rw [hpack, List.length_append, List.length_cons, List.length_cons]; omega
    cases t with
    | literal b => simp [Token.pack_literal] at hlong
    | run k len =>
      cases k with
      | zeroRun | ffRun => simp [length_pack_run, Kind.symbols] at hlong
      | patternRun p0 p1 =>
        obtain ⟨l, rfl⟩ := (hfits (.run (.patternRun p0 p1) len) (by simp)).exists_runLen
        rw [Token.pack_patternRun] at hpack
        obtain ⟨rfl, hoperands⟩ := List.cons.inj hpack
        exact ⟨before, p0, p1, l, after, u, v, rfl, hoperands, rfl, rfl⟩

/-- The tokens of an encoded body, cut into pieces, each one piece. -/
theorem split_compress_fits (b : List Byte) : ∀ t ∈ split (compress b), t.Fits :=
  fun _ => fits_of_mem_split

/-- A one-symbol token's symbol changed, by what is put for it. -/
theorem byteRun_symbol_changed {x y : Sym} {v : Byte} {n : Nat} {after : List Token} (hafter : ∀ t ∈ after, t.Fits)
    (hx : byteRunOf (decodeToken x) = some (v, n)) (hn : 1 ≤ n) (hne : x ≠ y)
    (hstop : n = 1 ∨ ∀ u tail, after = .literal u :: tail → u ≠ v) :
    bodyBytes (y :: after.flatMap Token.pack) = .ok (rep [v] n ++ decompress after) ↔ aliasing x y = true := by
  rcases decodeToken_cases y with ⟨w, m, hy⟩ | ⟨m, hy⟩ | hy
  · exact bodyBytes_byteRun_for_byteRun hx hn hne hy (bodyBytes_flatMap_pack hafter)
  · exact iff_of_false (bodyBytes_prun_for_byteRun hafter hn hy hstop) (not_aliasing_prun hy)
  · exact iff_of_false (by rw [bodyBytes_reserved hy]; exact nofun) (not_aliasing_reserved hy)

/-- A PRUN head changed, by what is put for it. -/
theorem prun_symbol_changed {y : Sym} {p0 p1 : Byte} {len : RunLen} {after : List Token}
    (hafter : ∀ t ∈ after, t.Fits) (hlen : 1 ≤ len.toNat) (h0 : ¬(p0 = 0x00#8 ∧ p1 = 0x00#8))
    (h1 : ¬(p0 = 0xFF#8 ∧ p1 = 0xFF#8)) (hne : encodeSym (.prun len) ≠ y) :
    bodyBytes (y :: encodeSym (.pat0 p0) :: encodeSym (.pat1 p1) :: after.flatMap Token.pack) =
      .ok (rep [p0, p1] len.toNat ++ decompress after) ↔ aliasing (encodeSym (.prun len)) y = true := by
  rcases decodeToken_cases y with ⟨w, m, hy⟩ | ⟨m, hy⟩ | hy
  · rw [bodyBytes_byteRun_for_prun hafter hlen h0 h1 hy, aliasing_prun_byteRun_iff (decodeToken_encodeSym rfl) hy]
  · exact iff_of_false (bodyBytes_prun_for_prun hafter hne hy) (not_aliasing_prun hy)
  · exact iff_of_false (by rw [bodyBytes_reserved hy]; exact nofun) (not_aliasing_reserved hy)

/-- R256 (3) at a token's first index. -/
theorem first_symbol_changed {b : List Byte} {before after : List Token} {t : Token} {x y : Sym} {v : List Sym}
    (h : split (compress b) = before ++ t :: after) (hpack : t.pack = x :: v) (hne : x ≠ y) :
    bodyBytes (y :: (v ++ after.flatMap Token.pack)) = .ok (t.expand ++ decompress after) ↔ aliasing x y = true := by
  have hfits : ∀ u ∈ before ++ t :: after, u.Fits := h ▸ split_compress_fits b
  have hafter : ∀ u ∈ after, u.Fits := fun u hu => hfits u (by simp [hu])
  cases t with
  | literal c =>
    cases hpack
    exact byteRun_symbol_changed (n := 1) hafter (by rw [decodeToken_encodeSym rfl]; rfl) le_rfl hne (.inl rfl)
  | run k len =>
    obtain ⟨hlen, h0, h1, hstop⟩ := split_compress_run h
    obtain ⟨l, rfl⟩ := (hfits (.run k len) (by simp)).exists_runLen
    cases k with
    | zeroRun =>
      rw [Token.pack_zeroRun] at hpack
      cases hpack
      exact byteRun_symbol_changed hafter (by rw [decodeToken_encodeSym rfl]; rfl) hlen hne
        (.inr fun u tail htail hu => hstop u tail htail (by rw [hu]; rfl))
    | ffRun =>
      rw [Token.pack_ffRun] at hpack
      cases hpack
      exact byteRun_symbol_changed hafter (by rw [decodeToken_encodeSym rfl]; rfl) hlen hne
        (.inr fun u tail htail hu => hstop u tail htail (by rw [hu]; rfl))
    | patternRun p0 p1 =>
      rw [Token.pack_patternRun] at hpack
      cases hpack
      exact prun_symbol_changed hafter hlen (by rintro ⟨rfl, rfl⟩; exact h0 rfl)
        (by rintro ⟨rfl, rfl⟩; exact h1 rfl) hne

/-- R256 (3) at an operand of a PRUN: another byte makes other pairs, a reserved symbol a refusal. -/
theorem operand_changed {p0 p1 : Byte} {len : RunLen} {u v : List Sym} {x y : Sym} {after : List Token}
    (hafter : ∀ t ∈ after, t.Fits) (hlen : 1 ≤ len.toNat) (hne : x ≠ y)
    (h : encodeSym (.pat0 p0) :: [encodeSym (.pat1 p1)] = u ++ x :: v) :
    bodyBytes (encodeSym (.prun len) :: u ++ y :: (v ++ after.flatMap Token.pack)) ≠
      .ok (rep [p0, p1] len.toNat ++ decompress after) := by
  intro hok
  match u, h with
  | [], h =>
    cases h
    exact hne (prun_operands_of_bodyBytes hlen hafter hok).1.symm
  | [_], h =>
    cases h
    exact hne (prun_operands_of_bodyBytes hlen hafter hok).2.symm
  | _ :: _ :: u, h => simp at h

/-- R256 (3) for the bytes of a body: a changed symbol leaves them as they were in the listed cases only. -/
theorem bodyBytes_changed_iff {b : List Byte} {front rest : List Sym} {x y : Sym}
    (h : pack (compress b) = front ++ x :: rest) (hne : x ≠ y) :
    bodyBytes (front ++ y :: rest) = .ok b ↔ (∃ ts, unpack front = .ok ts) ∧ aliasing x y = true := by
  have hbytes := decompress_split_compress b
  have hfits := split_compress_fits b
  rcases symbol_place hfits h with ⟨before, t, after, v, hts, hpack, rfl, rfl⟩ |
    ⟨before, p0, p1, len, after, u, v, hts, hoperands, rfl, rfl⟩
  · have hbefore : ∀ u ∈ before, u.Fits := fun u hu => hfits u (by simp [hts, hu])
    rw [hts, decompress_append, decompress_cons] at hbytes
    rw [← hbytes, bodyBytes_flatMap_pack_append_iff hbefore, first_symbol_changed hts hpack hne]
    exact (and_iff_right ⟨before, unpack_flatMap_pack hbefore⟩).symm
  · have hbefore : ∀ u ∈ before, u.Fits := fun u hu => hfits u (by simp [hts, hu])
    have hafter : ∀ u ∈ after, u.Fits := fun u hu => hfits u (by simp [hts, hu])
    have hcut : u.length < 2 := by
      have := congrArg List.length hoperands
      simp only [List.length_cons, List.length_nil, List.length_append] at this
      omega
    have hlen := (split_compress_run hts).1
    rw [hts, decompress_append, decompress_cons] at hbytes
    rw [← hbytes, List.append_assoc, bodyBytes_flatMap_pack_append_iff hbefore,
      unpack_flatMap_pack_append hbefore, unpack_prun_cut hcut]
    exact iff_of_false (operand_changed hafter hlen hne hoperands) (by rintro ⟨⟨ts, hts⟩, -⟩; cases hts)

/-- Settles O27: the changed document has the header of the buffer's length and the changed body. -/
theorem bodyCorruptionIsDetected : Obligations.BodyCorruptionIsDetected := by
  intro b front rest x y hfits h hne
  rw [List.append_assoc]
  refine ⟨_, rfl, decodeCall_carried_cases _ _, ?_⟩
  exact (decodeCall_eq_ok_iff_bodyBytes hfits _).trans (bodyBytes_changed_iff h hne)

end Sys2Proof.Machine

/-! SUPPORT. A call on the machine, step by step (44_orchestration.md R250 to R252, R257, R258): how the host begins
it and reads its result, that nothing happens outside it, what DEC's fetches do, and that no step of it stops but at
an input element the host never placed. -/

namespace Sys2Proof.Machine

/-! ### The steps that run instructions (R258) -/

/-- Settles O36: the fetch and the decoder of D.TOK answer the instruction. -/
theorem stepRunsTheDecodedToken : Obligations.StepRunsTheDecodedToken :=
  fun _ _ _ h hp hlt hw hi => h.step_token hp hlt hw hi

theorem withSymbol_symbolAt {s : State} {j : Nat} {w : Sym} (h : SymbolAt s j w) (go : Sym → Result) :
    withSymbol s j go = go w := by
  obtain ⟨c, hread, hc⟩ := h
  exact withSymbol_ok go hread hc

/-- R258, D.HDR: with four symbols to read the step is the four instructions in order. -/
theorem DecRuns.step_header {s : State} {w3 w2 w1 w0 : Sym} (h : DecRuns s) (hp : s.dec.phase = .header)
    (hm : 4 ≤ s.dec.m.toNat) (h3 : SymbolAt s 0 w3) (h2 : SymbolAt s 1 w2) (h1 : SymbolAt s 2 w1)
    (h0 : SymbolAt s 3 w0) :
    step s = andThen (exec (.hdr3 w3) s) fun s => andThen (exec (.hdr2 w2) s) fun s =>
      andThen (exec (.hdr1 w1) s) fun s => exec (.hdr0 w0) s := by
  have hlong : ¬s.dec.m.toNat < Config.headerSymbols := Nat.not_lt.2 hm
  rw [h.step_eq, decStep, hp]
  simp only [decHdr, if_neg hlong, withSymbol_symbolAt h3, withSymbol_symbolAt h2, withSymbol_symbolAt h1,
    withSymbol_symbolAt h0]

/-- R223: the value of four fields put together. -/
theorem toNat_append_fields (w3 w2 w1 w0 : Sym) : (w3 ++ w2 ++ w1 ++ w0 : BitVec (12 + 12 + 12 + 12)).toNat =
    w3.toNat * 2 ^ 36 + w2.toNat * 2 ^ 24 + w1.toNat * 2 ^ 12 + w0.toNat := by
  have happ : ∀ {m : Nat} (x : BitVec m) (w : Sym), (x ++ w).toNat = x.toNat * 2 ^ 12 + w.toNat := fun x w => by
    rw [BitVec.toNat_append, ← Nat.shiftLeft_add_eq_or_of_lt w.isLt, Nat.shiftLeft_eq]
  rw [happ, happ, happ]
  omega

/-- Settles O37: the four instructions load the four fields. -/
theorem stepReadsTheHeader : Obligations.StepReadsTheHeader := by
  intro s w3 w2 w1 w0 h hp hm h3 h2 h1 h0
  have hstep := h.step_header hp hm h3 h2 h1 h0
  exact ⟨hstep, _, hstep.trans (exec_header w3 w2 w1 w0 hm), rfl, toNat_append_fields w3 w2 w1 w0⟩

/-! ### Outside a call (R252, R295) -/

theorem step_idle {s : State} (hb : s.callState ≠ .busy) (hp : s.pending = []) : step s = .next s := by
  simp only [step, turn, hp]
  exact engineTurn_idle hb

/-- Settles O53: by induction on the number of steps, each of which answers the same state. -/
theorem noEngineStepOutsideACall : Obligations.NoEngineStepOutsideACall := by
  intro s hb hp k
  induction k with
  | zero => rfl
  | succ k ih => rw [runFor_succ, step_idle hb hp, andThen_next, ih]

/-! ### START, and the reading of the result (R250, R251) -/

/-- R250: a write of `CTRL` that sets START and leaves MODE as it is begins the call of that mode. -/
theorem step_start {s : State} {v : RegWord} {rest : List HostCmd} (hb : s.callState ≠ .busy)
    (hp : s.pending = .writeReg .ctrl v :: rest) (hv : ctrlStartBit v = true) (hm : ctrlModeBit v = s.mode) :
    step s = State.start { s with pending := rest } := by
  rw [step_writeReg hp]
  simp [State.writeReg, hb, State.writeCtrl, hv, hm]

/-- Settles O54: by the mode, and R43's values of the selected engine's registers. -/
theorem startBeginsACall : Obligations.StartBeginsACall := by
  intro s v rest hb hp hv hm hfits
  rw [step_start hb hp hv hm]
  rcases start_cases { s with pending := rest } with ⟨h0, hlong, -⟩ | ⟨h0, -, hstart⟩ | ⟨h1, hstart⟩
  · exact absurd (hfits h0) (Nat.not_lt.2 hlong)
  · refine ⟨_, hstart, rfl, rfl, rfl, rfl, rfl, rfl, rfl, fun _ => ⟨rfl, rfl, rfl, rfl, rfl, rfl, rfl, rfl⟩,
      fun h1 => ?_⟩
    exact absurd (h0.symm.trans h1) (by decide)
  · exact ⟨_, hstart, rfl, rfl, rfl, rfl, rfl, rfl, rfl, fun h0 => absurd h0 h1,
      fun _ => ⟨rfl, rfl, rfl, rfl, rfl, rfl, rfl, rfl, rfl⟩⟩

theorem readOC_done {s : State} (hd : s.callState = .done) {i : Nat} {c : CPOut} (h : s.mem.oc[i]? = some c) :
    s.readOC i = c := by
  rw [State.readOC, if_pos hd, List.getD_eq_getElem?_getD, h, Option.getD_some]

theorem readOB_done {s : State} (hd : s.callState = .done) {i : Nat} {b : Byte} (h : s.mem.ob[i]? = some b) :
    s.readOB i = b := by
  rw [State.readOB, if_pos hd, List.getD_eq_getElem?_getD, h, Option.getD_some]

/-- Settles O59: in DONE a read of an output element is the delivery of that element. -/
theorem resultsReadBack : Obligations.ResultsReadBack := by
  intro s rest hd
  refine ⟨fun i c hp hc => ?_, fun i b hp hb => ?_⟩
  · have hstep : step s = .next (State.deliver { s with pending := rest } ((s.readOC i.toNat).setWidth 64)) := by
      simp only [step, turn, hp, hostAct]
      rfl
    exact ⟨_, hstep, by rw [readOC_done hd hc]; rfl, rfl⟩
  · have hstep : step s = .next (State.deliver { s with pending := rest } ((s.readOB i.toNat).setWidth 64)) := by
      simp only [step, turn, hp, hostAct]
      rfl
    exact ⟨_, hstep, by rw [readOB_done hd hb]; rfl, rfl⟩

/-! ### Where a step can stop (R257, R258, U4) -/

/-- A step answers a next state, or faults at an input element the host never placed. -/
def GoesOn (r : Result) : Prop := (∃ t, r = .next t) ∨ r = .fault .inputNotPlaced

theorem goesOn_next (t : State) : GoesOn (.next t) := .inl ⟨t, rfl⟩

/-- E.HDR has a symbol for each of its four steps. -/
theorem encHdr_goesOn {s : State} (h : s.enc.hcnt.toNat < 4) : GoesOn (encHdr s) := by
  obtain ⟨w, hw⟩ : ∃ w, (writeHeader s.enc.n)[s.enc.hcnt.toNat]? = some w :=
    ⟨_, List.getElem?_eq_getElem (by rwa [length_writeHeader])⟩
  rw [encHdr, hw]
  exact goesOn_next _

/-- E.SCAN has an operation to select at every index below `N`. -/
theorem encScan_goesOn {s : State} (h : s.enc.cur < s.enc.n) : GoesOn (encScan s) := by
  cases hb : s.inputBytes s.enc.n.toNat with
  | none => exact .inr (by rw [encScan, hb])
  | some b =>
    have hcur : s.enc.cur.toNat < b.length := by rw [inputBytes_length hb]; exact h
    cases ht : nextToken b s.enc.cur.toNat with
    | none => exact absurd (nextToken_eq_none_iff.1 ht) (Nat.not_le.2 hcur)
    | some t =>
      simp only [encScan, hb, ht]
      cases t with
      | literal x => exact goesOn_next _
      | run k len => cases k <;> exact goesOn_next _

/-- R257: where ENC's registers are in their ranges one of its steps is enabled. -/
theorem EncInv.encStep_goesOn {s : State} (h : EncInv s) : GoesOn (encStep s) := by
  unfold encStep
  split
  · exact encHdr_goesOn (h.header ‹_›).1
  · split_ifs with h0 hr hlt heq h1 h2
    · exact goesOn_next _
    · exact encScan_goesOn hlt
    · exact goesOn_next _
    · exact absurd (BitVec.le_antisymm h.cursor (BitVec.not_lt.1 hlt)) heq
    · exact goesOn_next _
    · exact goesOn_next _
    · have h3 := h.sub.1
      exact absurd (show s.enc.psub = 3#2 by bv_omega) h3
  · exact absurd ‹_› h.running

/-- R258: past MAP every symbol below `M` can be read. -/
theorem DecInv.symbolAt {s : State} (h : DecInv s) (hp : s.dec.phase ≠ .map) {j : Nat} (hj : j < s.dec.m.toNat) :
    ∃ w, SymbolAt s j w :=
  h.passed j (by rwa [h.mapped hp])

theorem decHdr_next {s : State} (h : DecInv s) (hp : s.dec.phase = .header) : ∃ t, decHdr s = .next t := by
  unfold decHdr Config.headerSymbols
  split_ifs with hshort
  · exact ⟨_, rfl⟩
  · have hread : ∀ {j}, j < 4 → ∃ w, SymbolAt s j w := fun hj => h.symbolAt (by simp [hp]) (by omega)
    obtain ⟨w3, h3⟩ := hread (show 0 < 4 by decide)
    obtain ⟨w2, h2⟩ := hread (show 1 < 4 by decide)
    obtain ⟨w1, h1⟩ := hread (show 2 < 4 by decide)
    obtain ⟨w0, h0⟩ := hread (show 3 < 4 by decide)
    rw [withSymbol_symbolAt h3, withSymbol_symbolAt h2, withSymbol_symbolAt h1, withSymbol_symbolAt h0,
      exec_header w3 w2 w1 w0 (Nat.le_of_not_lt hshort)]
    exact ⟨_, rfl⟩

/-- R195: a PRUN is cut, or has its two operands to read. -/
theorem exec_prun_next {s : State} (h : DecInv s) (hp : s.dec.phase ≠ .map) (len : RunLen) :
    ∃ t, exec (.prun len) s = .next t := by
  rcases Nat.lt_or_ge (s.dec.scur.toNat + 2) s.dec.m.toNat with hfit | hcut
  · obtain ⟨a, ha⟩ := h.symbolAt hp (show s.dec.scur.toNat + 1 < s.dec.m.toNat by omega)
    obtain ⟨c, hc⟩ := h.symbolAt hp hfit
    cases hp0 : patternByte a with
    | none => exact ⟨_, exec_prun_reserved len hfit ha hc (.inl hp0)⟩
    | some p0 =>
      cases hp1 : patternByte c with
      | none => exact ⟨_, exec_prun_reserved len hfit ha hc (.inr hp1)⟩
      | some p1 => exact ⟨_, exec_prun_ok hfit ha hp0 hc hp1⟩
  · exact ⟨_, exec_prun_cut len hcut⟩

theorem decTok_next {s : State} (h : DecInv s) (hp : s.dec.phase = .unpack) (hlt : s.dec.scur < s.dec.m) :
    ∃ t, decTok s = .next t := by
  have hmap : s.dec.phase ≠ .map := by simp [hp]
  obtain ⟨w, hw⟩ := h.symbolAt hmap (j := s.dec.scur.toNat) hlt
  rw [decTok, withSymbol_symbolAt hw]
  simp only [decodeSym, decodeToken]
  split_ifs
  · exact ⟨_, rfl⟩
  · exact ⟨_, rfl⟩
  · exact exec_prun_next h hmap _
  · exact ⟨_, rfl⟩
  · exact ⟨_, rfl⟩
  · exact ⟨_, rfl⟩
  · exact ⟨_, rfl⟩

theorem decExp_next (s : State) : ∃ t, decExp s = .next t := by
  unfold decExp
  split_ifs <;> exact ⟨_, rfl⟩

theorem decVer_next (s : State) : ∃ t, decVer s = .next t := by
  unfold decVer
  split_ifs <;> exact ⟨_, rfl⟩

theorem decMap_goesOn (s : State) : GoesOn (decMap s) := by
  unfold decMap
  split_ifs with hm
  · exact goesOn_next _
  · split
    · exact .inr rfl
    · split_ifs <;> exact goesOn_next _

/-- R258: where DEC's registers are in their ranges one of its steps is enabled, and past MAP it is one that goes on. -/
theorem DecInv.decStep_goesOn {s : State} (h : DecInv s) :
    (∃ t, decStep s = .next t) ∨ (decStep s = .fault .inputNotPlaced ∧ s.dec.phase = .map) := by
  unfold decStep
  split
  · rename_i hp
    exact (decMap_goesOn s).imp id fun hstop => ⟨hstop, hp⟩
  · exact .inl (decHdr_next h ‹_›)
  · rename_i hp
    left
    split_ifs with hlt heq
    · exact decTok_next h hp hlt
    · exact ⟨_, rfl⟩
    · exact absurd (BitVec.le_antisymm h.cursor.2 (BitVec.not_lt.1 hlt)) heq
  · exact .inl (decExp_next s)
  · exact .inl (decVer_next s)
  · exact absurd ‹_› h.running

/-- R252, R257, R258: an engine's turn goes on, or stops at an element not placed, in an encode call or in MAP. -/
theorem Inv.engineTurn_goesOn {s : State} (h : Inv s) :
    (∃ t, engineTurn s = .next t) ∨
      (engineTurn s = .fault .inputNotPlaced ∧ (s.mode = 0#1 ∨ s.dec.phase = .map)) := by
  by_cases hb : s.callState = .busy
  · rcases engineTurn_busy hb with ⟨hm, heq⟩ | ⟨hm, heq⟩ <;> rw [heq]
    · exact (h.encoding hb hm).encStep_goesOn.imp id fun hstop => ⟨hstop, .inl hm⟩
    · exact (decInv_of_busy h hb hm).decStep_goesOn.imp id fun hstop => ⟨hstop.1, .inr hstop.2⟩
  · exact .inl ⟨s, engineTurn_idle hb⟩

/-- A host command is done, or refused because it breaks a duty of the host's (U3, U5, U8). -/
def HostAnswers (r : Result) : Prop :=
  (∃ t, r = .next t) ∨ ∃ e ∈ [Refusal.encodeTooLong, .inputWriteWhileBusy, .resetWhileBusy], r = .refused e

theorem start_answers (s : State) : HostAnswers s.start := by
  rcases start_cases s with ⟨-, -, h⟩ | ⟨-, -, h⟩ | ⟨-, h⟩ <;> rw [h]
  · exact .inr ⟨_, by simp, rfl⟩
  · exact .inl ⟨_, rfl⟩
  · exact .inl ⟨_, rfl⟩

theorem writeReg_answers (s : State) (r : HostReg) (v : RegWord) : HostAnswers (s.writeReg r v) := by
  unfold State.writeReg
  split_ifs
  · exact .inl ⟨_, rfl⟩
  · cases r with
    | ctrl =>
      simp only [State.writeCtrl]
      split_ifs
      · exact start_answers _
      · exact start_answers _
      · exact .inl ⟨_, rfl⟩
    | status | err | inLen | outLen => exact .inl ⟨_, rfl⟩

theorem hostPlace_answers (s t : State) : HostAnswers (s.hostPlace t) := by
  unfold State.hostPlace
  split_ifs
  · exact .inr ⟨_, by simp, rfl⟩
  · exact .inl ⟨_, rfl⟩

theorem hostAct_answers (c : HostCmd) (s : State) : HostAnswers (hostAct c s) := by
  cases c with
  | writeReg r v => exact writeReg_answers s r v
  | writeIB i b => exact hostPlace_answers s _
  | writeIC i c => exact hostPlace_answers s _
  | reset =>
    simp only [hostAct, State.hostReset]
    split_ifs
    · exact .inr ⟨_, by simp, rfl⟩
    · exact .inl ⟨_, rfl⟩
  | readReg | readOC | readOB | waitDone | letEngine => exact .inl ⟨_, rfl⟩

/-- Where the invariant holds a step is an engine's, which goes on or stops at an element not placed, or the host's. -/
theorem Inv.step_answers {s : State} (h : Inv s) :
    HostAnswers (step s) ∨ (step s = .fault .inputNotPlaced ∧ (s.mode = 0#1 ∨ s.dec.phase = .map)) := by
  rcases step_cases s with ⟨_, hs⟩ | ⟨p, _, hs⟩ | ⟨_, _, _, hs⟩ | ⟨p, _, _, hs⟩ | ⟨c, p, _, _, _, hs⟩ <;> rw [hs]
  · exact h.engineTurn_goesOn.imp .inl id
  · exact (h.hostFields p s.readData s.freeCount).engineTurn_goesOn.imp .inl id
  · exact h.engineTurn_goesOn.imp .inl id
  · exact .inl (hostAct_answers _ _)
  · exact .inl (hostAct_answers _ _)

/-- Settles O47: by what each part of the machine can answer where the invariant holds. -/
theorem busyEngineAlwaysHasAStep : Obligations.BusyEngineAlwaysHasAStep := by
  intro s h
  rcases h.step_answers with (⟨t, hs⟩ | ⟨e, he, hs⟩) | ⟨hs, hwhere⟩ <;> rw [hs]
  · exact ⟨nofun, nofun, nofun⟩
  · refine ⟨nofun, nofun, fun n hn => ?_⟩
    cases hn
    simp at he
  · exact ⟨nofun, fun _ _ => hwhere, nofun⟩

end Sys2Proof.Machine

/-! SUPPORT. An encode call on the machine (44_orchestration.md R257, R259). E.RUN and its operand steps emit one
packed piece; a run is settled for the three kinds at once, by induction on `RLEN`. A token taken at `CUR` is emitted
and brings ENC back to the scan behind it, in at most two steps a byte; the call is the header's four steps, one token
after another, and E.END. -/

namespace Sys2Proof.Machine

/-! ### Runs of the machine within a call (R251) -/

/-- A step that follows no command of the host leaves none to follow. -/
theorem step_pending {s t : State} (hp : s.pending = []) (h : step s = .next t) : t.pending = [] := by
  have hturn : engineTurn s = .next t := by rwa [step, turn, hp] at h
  by_cases hb : s.callState = .busy
  · rcases engineTurn_busy hb with ⟨-, he⟩ | ⟨-, he⟩ <;> rw [he] at hturn
    · rcases (encMove_of_encStep hturn).effect with ⟨e, rfl⟩ | ⟨w, e, rfl⟩ | rfl <;> exact hp
    · rcases (decMove_of_decStep hturn).effect with ⟨d, rfl⟩ | ⟨b, d, rfl⟩ | ⟨rfl, -⟩ | ⟨k, -, rfl⟩ <;> exact hp
  · rw [engineTurn_idle hb] at hturn
    cases hturn
    exact hp

/-- R251: a call that has ended after some number of steps has ended once, and was BUSY at every step before. -/
theorem runFor_until_end {n : Nat} {s t : State} (hp : s.pending = []) (hb : s.callState = .busy)
    (h : runFor n s = .next t) (ht : t.callState ≠ .busy) :
    ∃ k ≤ n, runFor k s = .next t ∧ ∀ j < k, ∃ u, runFor j s = .next u ∧ u.callState = .busy := by
  induction n generalizing s with
  | zero =>
    cases h
    exact absurd hb ht
  | succ n ih =>
    rw [runFor_succ] at h
    obtain ⟨u, hu, hrest⟩ := andThen_eq_next h
    have hone : ∀ k, runFor (k + 1) s = runFor k u := fun k => by rw [runFor_succ, hu, andThen_next]
    by_cases hub : u.callState = .busy
    · obtain ⟨k, hk, hend, hbefore⟩ := ih (step_pending hp hu) hub hrest
      refine ⟨k + 1, Nat.succ_le_succ hk, (hone k).trans hend, fun j hj => ?_⟩
      cases j with
      | zero => exact ⟨s, rfl, hb⟩
      | succ j =>
        obtain ⟨v, hv, hvb⟩ := hbefore j (Nat.lt_of_succ_lt_succ hj)
        exact ⟨v, (hone j).trans hv, hvb⟩
    · rw [noEngineStepOutsideACall u hub (step_pending hp hu) n] at hrest
      cases hrest
      refine ⟨1, by omega, (hone 0).trans rfl, fun j hj => ?_⟩
      obtain rfl : j = 0 := by omega
      exact ⟨s, rfl, hb⟩

/-- While ENC runs, the machine's step is ENC's. -/
theorem EncRuns.step_eq {s : State} (h : EncRuns s) : step s = encStep s := by
  simp [step, turn, h.pending, engineTurn, h.busy, h.mode]

/-- What every step inside a call keeps holds along it, up to its last BUSY state. -/
theorem runFor_keeps {P : State → Prop} {n : Nat} {s t : State}
    (hkeep : ∀ u v, u.pending = [] → u.callState = .busy → P u → step u = .next v → v.callState = .busy → P v)
    (hp : s.pending = []) (hs : P s) (hrun : runFor n s = .next t) (hb : t.callState = .busy) : P t := by
  induction n generalizing s with
  | zero =>
    cases hrun
    exact hs
  | succ n ih =>
    rw [runFor_succ] at hrun
    obtain ⟨u, hu, hrest⟩ := andThen_eq_next hrun
    have hup := step_pending hp hu
    have hbusy : ∀ {v m}, v.pending = [] → runFor m v = .next t → v.callState = .busy := fun {v m} hv hvt => by
      by_contra hne
      rw [noEngineStepOutsideACall v hne hv m] at hvt
      cases hvt
      exact hne hb
    have hsb : s.callState = .busy := hbusy (m := n + 1) hp (by rw [runFor_succ, hu, andThen_next, hrest])
    exact ih hup (hkeep s u hp hsb hs hu (hbusy hup hrest)) hrest

/-- ENC's invariant along a call. -/
theorem runFor_keeps_encInv {n : Nat} {s t : State} (h : EncRuns s) (hi : EncInv s) (hrun : runFor n s = .next t)
    (hb : t.callState = .busy) : EncInv t := by
  refine (runFor_keeps (P := fun u => u.mode = 0#1 ∧ EncInv u) ?_ h.pending ⟨h.mode, hi⟩ hrun hb).2
  rintro u v hp hub ⟨hm, hu⟩ hstep hvb
  have hmove := encMove_of_encStep (EncRuns.step_eq ⟨hp, hub, hm⟩ ▸ hstep)
  exact ⟨hmove.call_eq.1.trans hm, hmove.keeps_encInv hu hvb⟩

/-! ### The pieces of a run (R181, R257 E.RUN, E.PAT0, E.PAT1) -/

/-- The symbols `ws` appended to `OC` and counted, `left` units of the current run not yet packed. -/
def State.emitPieces (s : State) (ws : List Sym) (left : Len48) : State :=
  { s with
    mem := { s.mem with oc := s.mem.oc ++ ws.map codePoint }
    enc := { s.enc with ocnt := s.enc.ocnt + BitVec.ofNat 49 ws.length, rlen := left } }

theorem State.emitPieces_emitPieces (s : State) (ws xs : List Sym) (l m : Len48) :
    (s.emitPieces ws l).emitPieces xs m = s.emitPieces (ws ++ xs) m := by
  simp [State.emitPieces, BitVec.add_assoc, BitVec.ofNat_add]

theorem EncRuns.emitPieces {s : State} (h : EncRuns s) (ws : List Sym) (left : Len48) :
    EncRuns (s.emitPieces ws left) :=
  ⟨h.pending, h.busy, h.mode⟩

theorem EncRuns.emitSymbol {s : State} (h : EncRuns s) (w : Sym) (e : EncRegs) : EncRuns ((s.emitSymbol w).setEnc e) :=
  ⟨h.pending, h.busy, h.mode⟩

/-- ENC's run registers hold a run of kind `k`. -/
structure EncRegs.HoldsRun (e : EncRegs) (k : Kind) : Prop where
  kind : e.rkind = k.tag
  pair : ∀ p0 p1, k = .patternRun p0 p1 → e.p0 = p0 ∧ e.p1 = p1

theorem EncRegs.HoldsRun.emitPieces {s : State} {k : Kind} (h : s.enc.HoldsRun k) (ws : List Sym) (left : Len48) :
    (s.emitPieces ws left).enc.HoldsRun k :=
  ⟨h.kind, h.pair⟩

theorem pack_cons (t : Token) (ts : List Token) : pack (t :: ts) = pack [t] ++ pack ts := by
  simp [pack, split]

theorem pack_of_fits {t : Token} (h : t.Fits) : pack [t] = t.pack := by
  simp [pack, split, Token.split_of_fits h]

/-- R181: the first piece of a run that does not fit one is full. -/
theorem pack_run_of_long (k : Kind) {len : Nat} (h : 1023 < len) :
    pack [.run k len] = (Token.run k 1023).pack ++ pack [.run k (len - 1023)] := by
  have hdiv : len / 1023 = (len - 1023) / 1023 + 1 := by omega
  have hmod : len % 1023 = (len - 1023) % 1023 := by omega
  have hsplit : (Token.run k len).split = .run k 1023 :: (Token.run k (len - 1023)).split := by
    rw [Token.split_run_of_pos k (by omega), Token.split_run_of_pos k (by omega), hdiv, hmod, List.replicate_succ]
    rfl
  simp [pack, split, hsplit]

section
variable {s : State} (h : EncRuns s) (hp : s.enc.phase = .body)
include h hp

theorem EncRuns.step_piece (hs : s.enc.psub = 0) (hr : s.enc.rlen ≠ 0) :
    step s = .next ((s.emitSymbol
      (s.enc.rkind ++ BitVec.ofNat 10 (min s.enc.rlen.toNat Config.maxLen) : BitVec (2 + 10))).setEnc
        (s.enc.takePiece (min s.enc.rlen.toNat Config.maxLen))) := by
  simp only [h.step_eq, encStep, hp, hs, if_true, if_pos hr]
  rfl

theorem EncRuns.step_pat0 (hs : s.enc.psub = 1) :
    step s = .next ((s.emitSymbol (encodeSym (.pat0 s.enc.p0))).setEnc
      { s.enc with ocnt := s.enc.ocnt + 1, psub := 2 }) := by
  simp [h.step_eq, encStep, hp, hs, encPat0]

theorem EncRuns.step_pat1 (hs : s.enc.psub = 2) :
    step s = .next ((s.emitSymbol (encodeSym (.pat1 s.enc.p1))).setEnc
      { s.enc with ocnt := s.enc.ocnt + 1, psub := 0 }) := by
  simp [h.step_eq, encStep, hp, hs, encPat1]

/-- The two operand symbols of a PRUN. -/
theorem EncRuns.runFor_operands (hs : s.enc.psub = 1) :
    runFor 2 s = .next { s with
      mem := { s.mem with
        oc := s.mem.oc ++ [codePoint (encodeSym (.pat0 s.enc.p0)), codePoint (encodeSym (.pat1 s.enc.p1))] }
      enc := { s.enc with ocnt := s.enc.ocnt + 2, psub := 0 } } := by
  have h1 := (h.emitSymbol (encodeSym (.pat0 s.enc.p0))
    { s.enc with ocnt := s.enc.ocnt + 1, psub := 2 }).step_pat1 hp rfl
  rw [runFor_succ, h.step_pat0 hp hs, andThen_next, runFor_one, h1]
  simp [State.emitSymbol, State.setEnc, State.appendOC, BitVec.add_assoc]

end

/-- One piece of the run, in as many steps as it has symbols. -/
theorem runFor_piece {s : State} {k : Kind} {n : Nat} (h : EncRuns s) (hp : s.enc.phase = .body) (hs : s.enc.psub = 0)
    (hk : s.enc.HoldsRun k) (hr : s.enc.rlen ≠ 0) (hn : n = min s.enc.rlen.toNat 1023) :
    runFor k.symbols s = .next (s.emitPieces (Token.run k n).pack (s.enc.rlen - BitVec.ofNat 48 n)) := by
  have hpiece := h.step_piece hp hs hr
  rw [show min s.enc.rlen.toNat Config.maxLen = n from hn.symm, hk.kind] at hpiece
  cases k with
  | zeroRun | ffRun =>
    rw [Kind.symbols, runFor_one, hpiece]
    simp [EncRegs.takePiece, hk.kind, Kind.tag, State.emitPieces]
    rfl
  | patternRun p0 p1 =>
    obtain ⟨rfl, rfl⟩ := hk.pair p0 p1 rfl
    have hoperands := (h.emitSymbol ((Kind.patternRun s.enc.p0 s.enc.p1).tag ++ BitVec.ofNat 10 n : BitVec (2 + 10))
      (s.enc.takePiece n)).runFor_operands hp (by simp [hk.kind, Kind.tag])
    rw [Kind.symbols, runFor_succ, hpiece, andThen_next, hoperands]
    simp [EncRegs.takePiece, Kind.tag, State.emitPieces, Token.pack, Token.instrs, ← hs, BitVec.add_assoc]
    rfl

/-- R181: the run in as many pieces as its length needs, the full ones first. -/
theorem runFor_pieces {s : State} {k : Kind} {len : Nat} (h : EncRuns s) (hp : s.enc.phase = .body)
    (hs : s.enc.psub = 0) (hk : s.enc.HoldsRun k) (hlen : s.enc.rlen.toNat = len) (hpos : 1 ≤ len) :
    runFor (k.symbols * ((len + 1022) / 1023)) s = .next (s.emitPieces (pack [.run k len]) 0) := by
  induction len using Nat.strong_induction_on generalizing s with
  | _ len ih =>
    have hr : s.enc.rlen ≠ 0 := by rintro hzero; simp [hzero] at hlen; omega
    have hlt := s.enc.rlen.isLt
    rcases Nat.lt_or_ge 1023 len with hlong | hshort
    · have hpiece := runFor_piece (n := 1023) h hp hs hk hr (by omega)
      have hleft : (s.enc.rlen - BitVec.ofNat 48 1023).toNat = len - 1023 := by
        rw [BitVec.toNat_sub, BitVec.toNat_ofNat]
        omega
      have hcount : (len + 1022) / 1023 = 1 + (len - 1023 + 1022) / 1023 := by omega
      have hrest := ih (len - 1023) (by omega)
        (h.emitPieces (Token.run k 1023).pack (s.enc.rlen - BitVec.ofNat 48 1023)) hp hs
        (hk.emitPieces _ _) hleft (by omega)
      rw [hcount, Nat.mul_add, Nat.mul_one, runFor_add, hpiece, andThen_next, hrest, State.emitPieces_emitPieces,
        pack_run_of_long k hlong]
    · have hpiece := runFor_piece (n := len) h hp hs hk hr (by omega)
      have hleft : s.enc.rlen - BitVec.ofNat 48 len = 0 := by rw [← hlen]; simp
      have hcount : (len + 1022) / 1023 = 1 := by omega
      rw [hcount, Nat.mul_one, hpiece, hleft, pack_of_fits (Token.fits_run_iff.2 hshort)]

theorem length_pack_run_of_pos (k : Kind) {len : Nat} (h : 1 ≤ len) :
    (pack [.run k len]).length = k.symbols * ((len + 1022) / 1023) := by
  rw [length_pack, List.map_singleton, List.sum_singleton, cost_run, pieces_of_pos h]

/-- Settles O40: a run of a byte is a run whose pieces are one symbol each. -/
theorem encoderEmitsByteRunPieces : Obligations.EncoderEmitsByteRunPieces := by
  intro s k h hp hs hkind hr
  have hpos : 1 ≤ s.enc.rlen.toNat := Nat.one_le_iff_ne_zero.2 fun hzero => hr (BitVec.eq_of_toNat_eq hzero)
  obtain ⟨hone, hk⟩ : k.symbols = 1 ∧ s.enc.HoldsRun k := by
    rcases hkind with ⟨htag, rfl⟩ | ⟨htag, rfl⟩ <;> exact ⟨rfl, htag, nofun⟩
  have hrun := runFor_pieces h hp hs hk rfl hpos
  rwa [State.emitPieces, length_pack_run_of_pos k hpos, hone, Nat.one_mul] at hrun

/-! ### One token after another (R141, R186, R257 E.SCAN) -/

/-- ENC in an encode call on `b`, at the scan, the bytes before index `i` covered. -/
structure EncScans (s : State) (b : List Byte) (i : Nat) : Prop where
  runs : EncRuns s
  phase : s.enc.phase = .body
  psub : s.enc.psub = 0
  rlen : s.enc.rlen = 0
  cur : s.enc.cur.toNat = i
  n : s.enc.n.toNat = b.length
  input : s.inputBytes b.length = some b

theorem EncRegs.holdsRun_loadRun (e : EncRegs) (k : Kind) (len : Nat) : (e.loadRun k len).HoldsRun k :=
  ⟨e.loadRun_rkind k len, by rintro p0 p1 rfl; exact ⟨rfl, rfl⟩⟩

/-- `m` with the code points of the symbols `ws` appended to `OC`. -/
def Memory.appendSymbols (m : Memory) (ws : List Sym) : Memory := { m with oc := m.oc ++ ws.map codePoint }

theorem Memory.appendSymbols_nil (m : Memory) : m.appendSymbols [] = m := by
  simp [Memory.appendSymbols]

theorem Memory.appendSymbols_appendSymbols (m : Memory) (ws xs : List Sym) :
    (m.appendSymbols ws).appendSymbols xs = m.appendSymbols (ws ++ xs) := by
  simp [Memory.appendSymbols]

section
variable {s : State} {b : List Byte} {i : Nat} (h : EncScans s b i)
include h

theorem EncScans.inputBytes_n : s.inputBytes s.enc.n.toNat = some b := h.n ▸ h.input

theorem EncScans.step_scan {t : Token} (ht : nextToken b i = some t) : step s = encScan s := by
  have hlt : s.enc.cur < s.enc.n := by
    rw [BitVec.lt_def, h.cur, h.n]
    exact lt_length_of_nextToken ht
  simp [h.runs.step_eq, encStep, h.phase, h.psub, h.rlen, hlt]

theorem EncScans.cur_add {t : Token} (ht : nextToken b i = some t) :
    (s.enc.cur + BitVec.ofNat 48 t.byteLen).toNat = i + t.byteLen := by
  rw [← h.cur] at ht ⊢
  exact (cur_add_byteLen h.inputBytes_n ht).1

/-- A literal is emitted in one step. -/
theorem EncScans.literal {x : Byte} (ht : nextToken b i = some (.literal x)) :
    ∃ t, runFor 1 s = .next t ∧ EncScans t b (i + 1) ∧ t.mem = s.mem.appendSymbols (pack [.literal x]) := by
  have hstep : step s = .next ((s.emitSymbol (encodeSym (.lit x))).setEnc
      { s.enc with ocnt := s.enc.ocnt + 1, cur := s.enc.cur + 1 }) := by
    rw [h.step_scan ht, encScan, h.inputBytes_n]
    simp only [h.cur, ht]
    rfl
  exact ⟨_, (runFor_one s).trans hstep,
    ⟨h.runs.emitSymbol _ _, h.phase, h.psub, h.rlen, h.cur_add ht, h.n, h.input⟩, rfl⟩

/-- A run is loaded in one step. -/
theorem EncScans.step_run {k : Kind} {len : Nat} (ht : nextToken b i = some (.run k len)) :
    step s = .next (s.setEnc (s.enc.loadRun k len)) := by
  rw [h.step_scan ht, encScan, h.inputBytes_n]
  simp only [h.cur, ht]
  cases k <;> rfl

/-- A run is loaded in one step and emitted in one for each symbol. -/
theorem EncScans.run {k : Kind} {len : Nat} (ht : nextToken b i = some (.run k len)) :
    ∃ t, runFor (1 + (Token.run k len).cost) s = .next t ∧ EncScans t b (i + (Token.run k len).byteLen) ∧
      t.mem = s.mem.appendSymbols (pack [.run k len]) := by
  have hlen := nextToken_run_length ht
  have hfit := nextToken_byteLen_le ht
  have hbytes := run_length_le_byteLen k len
  have hn := s.enc.n.isLt
  rw [h.n] at hn
  have hrlen : (s.setEnc (s.enc.loadRun k len)).enc.rlen.toNat = len := by
    rw [State.setEnc_enc, EncRegs.loadRun_rlen, BitVec.toNat_ofNat]
    omega
  have hpieces := runFor_pieces (s := s.setEnc (s.enc.loadRun k len)) ⟨h.runs.pending, h.runs.busy, h.runs.mode⟩
    (by simp [h.phase]) (by simp [h.psub]) (s.enc.holdsRun_loadRun k len) hrlen (by omega)
  have hrun : runFor (1 + (Token.run k len).cost) s =
      .next ((s.setEnc (s.enc.loadRun k len)).emitPieces (pack [.run k len]) 0) := by
    rw [runFor_add, runFor_one, h.step_run ht, andThen_next, cost_run, pieces_of_pos (by omega), hpieces]
  refine ⟨_, hrun, ⟨⟨h.runs.pending, h.runs.busy, h.runs.mode⟩, ?_, ?_, rfl, ?_, ?_, h.input⟩, rfl⟩
  · simp [State.emitPieces, h.phase]
  · simp [State.emitPieces, h.psub]
  · simpa [State.emitPieces] using h.cur_add ht
  · simpa [State.emitPieces] using h.n

/-- R328: a token is emitted in at most two steps a byte. -/
theorem EncScans.token {u : Token} (ht : nextToken b i = some u) :
    ∃ k t, k ≤ 2 * u.byteLen ∧ runFor k s = .next t ∧ EncScans t b (i + u.byteLen) ∧
      t.mem = s.mem.appendSymbols (pack [u]) := by
  cases u with
  | literal x =>
    obtain ⟨t, hrun, hscan, hmem⟩ := h.literal ht
    exact ⟨1, t, by simp [Token.byteLen], hrun, hscan, hmem⟩
  | run k len =>
    obtain ⟨t, hrun, hscan, hmem⟩ := h.run ht
    have hlen := nextToken_run_length ht
    have hcost := run_cost_lt_byteLen k (len := len) (by omega)
    exact ⟨_, t, by omega, hrun, hscan, hmem⟩

end

/-- R141, R257: from the scan at a position, the tokens from there on, one after another. -/
theorem EncScans.tokens {s : State} {b : List Byte} {i fuel : Nat} (h : EncScans s b i) (hi : i ≤ b.length)
    (hfuel : b.length ≤ i + fuel) :
    ∃ k t, k ≤ 2 * (b.length - i) ∧ runFor k s = .next t ∧ EncScans t b b.length ∧
      t.mem = s.mem.appendSymbols (pack (compressFrom b fuel i)) := by
  induction fuel generalizing s i with
  | zero =>
    obtain rfl : i = b.length := le_antisymm hi hfuel
    exact ⟨0, s, Nat.zero_le _, rfl, h, s.mem.appendSymbols_nil.symm⟩
  | succ fuel ih =>
    unfold compressFrom
    split
    next hnone =>
      obtain rfl : i = b.length := le_antisymm hi (nextToken_eq_none_iff.1 hnone)
      exact ⟨0, s, Nat.zero_le _, rfl, h, s.mem.appendSymbols_nil.symm⟩
    next u hu =>
      have hfit := nextToken_byteLen_le hu
      have hpos := nextToken_byteLen_pos hu
      obtain ⟨k, t, hk, hrun, hscan, hmem⟩ := h.token hu
      obtain ⟨k', t', hk', hrun', hscan', hmem'⟩ := ih hscan (by omega) (by omega)
      refine ⟨k + k', t', by omega, by rw [runFor_add, hrun, andThen_next, hrun'], hscan', ?_⟩
      rw [hmem', hmem, Memory.appendSymbols_appendSymbols, ← pack_cons]

/-! ### The header and the end of the call (R251, R257 E.HDR, E.END) -/

/-- E.HDR: the header symbol that `HCNT` counts to. -/
theorem EncRuns.step_hdr {s : State} {w : Sym} (h : EncRuns s) (hp : s.enc.phase = .header)
    (hw : (writeHeader s.enc.n)[s.enc.hcnt.toNat]? = some w) :
    step s = .next ((s.emitSymbol w).setEnc s.enc.nextHeader) := by
  simp only [h.step_eq, encStep, hp, encHdr, hw]
  rfl

/-- `s` with the first `j` header symbols emitted. -/
def State.afterHeader (s : State) (j : Nat) : State :=
  { s with
    mem := s.mem.appendSymbols ((writeHeader s.enc.n).take j)
    enc := { s.enc with
      ocnt := s.enc.ocnt + BitVec.ofNat 49 j
      hcnt := BitVec.ofNat 3 j
      phase := if j = 4 then .body else .header } }

theorem EncRuns.step_afterHeader {s : State} (h : EncRuns s) {j : Nat} (hj : j < 4) :
    step (s.afterHeader j) = .next (s.afterHeader (j + 1)) := by
  have hcnt : (BitVec.ofNat 3 j).toNat = j := Nat.mod_eq_of_lt (by omega)
  have hlt : j < (writeHeader s.enc.n).length := hj
  have hw : (writeHeader s.enc.n)[j]? = some (writeHeader s.enc.n)[j] := List.getElem?_eq_getElem hlt
  have hruns : EncRuns (s.afterHeader j) := ⟨h.pending, h.busy, h.mode⟩
  have hlast : BitVec.ofNat 3 j + 1 = 4#3 ↔ j + 1 = 4 := by bv_omega
  have hocnt : BitVec.ofNat 49 j + 1 = BitVec.ofNat 49 (j + 1) := (BitVec.ofNat_add j 1).symm
  have hhcnt : BitVec.ofNat 3 j + 1 = BitVec.ofNat 3 (j + 1) := (BitVec.ofNat_add j 1).symm
  rw [hruns.step_hdr (if_neg (by omega)) (by rwa [State.afterHeader, hcnt])]
  simp only [State.afterHeader, State.emitSymbol, State.appendOC, State.setEnc, EncRegs.nextHeader,
    Memory.appendSymbols, BitVec.add_assoc, hocnt, hhcnt, ← hlast, List.take_succ_eq_append_getElem hlt,
    List.map_append, List.append_assoc, List.map_cons, List.map_nil]

/-- R221, R257: the header symbols, most significant first. -/
theorem EncRuns.runFor_header {s : State} (h : EncRuns s) (hp : s.enc.phase = .header) (hc : s.enc.hcnt = 0)
    {j : Nat} (hj : j ≤ 4) : runFor j s = .next (s.afterHeader j) := by
  induction j with
  | zero => simp [State.afterHeader, Memory.appendSymbols, ← hp, show 0#3 = s.enc.hcnt from hc.symm]
  | succ j ih => rw [runFor_add, ih (by omega), andThen_next, runFor_one, h.step_afterHeader hj]

/-- R250, R321: the scan is reached four steps after START. -/
theorem encScans_afterHeader {s : State} {b : List Byte} (hp : s.pending = []) (hm : s.mode = 0#1)
    (hlen : s.inLen.toNat = b.length) (hfits : b.length < 2 ^ 48) (hb : s.inputBytes b.length = some b) :
    runFor 4 s.startEnc = .next (s.startEnc.afterHeader 4) ∧ EncScans (s.startEnc.afterHeader 4) b 0 := by
  have hruns : EncRuns s.startEnc := ⟨hp, rfl, hm⟩
  have hn : (s.inLen.setWidth 48).toNat = b.length := by
    rw [BitVec.toNat_setWidth, hlen]
    exact Nat.mod_eq_of_lt hfits
  exact ⟨hruns.runFor_header rfl rfl le_rfl, ⟨hp, rfl, hm⟩, rfl, rfl, rfl, rfl, hn, hb⟩

theorem EncScans.step_end {s : State} {b : List Byte} (h : EncScans s b b.length) : step s = .next s.finishEnc := by
  have heq : s.enc.cur = s.enc.n := BitVec.eq_of_toNat_eq (h.cur.trans h.n.symm)
  simp [h.runs.step_eq, encStep, h.phase, h.psub, h.rlen, heq]

/-- R259: from START, an encode call to its last step. -/
theorem runFor_encodeCall {s : State} {b : List Byte} (hp : s.pending = []) (hm : s.mode = 0#1)
    (hlen : s.inLen.toNat = b.length) (hfits : b.length < 2 ^ 48) (hb : s.inputBytes b.length = some b) :
    ∃ k t, k ≤ 2 * b.length + 5 ∧ runFor k s.startEnc = .next t ∧ t.callState = .done ∧ t.errCode = 0 ∧
      t.mem = { s.mem with oc := (encodedSymbols b).map codePoint, ob := [] } ∧ t.outLen.toNat = t.mem.oc.length := by
  obtain ⟨hheader, hscan⟩ := encScans_afterHeader hp hm hlen hfits hb
  obtain ⟨k, t, hk, hrun, hend, hmem⟩ := hscan.tokens (fuel := b.length) (Nat.zero_le _) (by omega)
  have hcall : runFor (4 + k) s.startEnc = .next t := by rw [runFor_add, hheader, andThen_next, hrun]
  have hinv : EncInv t :=
    runFor_keeps_encInv (s := s.startEnc) ⟨hp, rfl, hm⟩ (encInv_startEnc (hlen ▸ hfits)) hcall hend.runs.busy
  refine ⟨4 + k + 1, t.finishEnc, by omega, ?_, rfl, rfl, ?_, hinv.count⟩
  · rw [runFor_add, hcall, andThen_next, runFor_one, hend.step_end]
  · have hn : s.inLen.setWidth 48 = BitVec.ofNat 48 b.length := by rw [← hlen]; simp
    have hheadermem : (s.startEnc.afterHeader 4).mem =
        { s.mem with oc := (writeHeader (BitVec.ofNat 48 b.length)).map codePoint, ob := [] } := by rw [← hn]; rfl
    rw [State.finishEnc_mem, hmem, hheadermem]
    simp [Memory.appendSymbols, encodedSymbols, compress]

/-- Settles O48: START, then the call up to its end, which comes once. -/
theorem encodeCallComputesEncode : Obligations.EncodeCallComputesEncode := by
  intro s b h
  obtain ⟨v, hp, hv, hmv⟩ := h.start
  have hstart : step s = .next (State.startEnc { s with pending := [] }) := by
    rw [step_start h.idle hp hv (hmv.trans h.mode.symm)]
    rcases start_cases { s with pending := [] } with ⟨-, hlong, -⟩ | ⟨-, -, hs⟩ | ⟨h1, -⟩
    · exact absurd (h.length ▸ h.fits) (Nat.not_lt.2 hlong)
    · exact hs
    · exact absurd h.mode h1
  obtain ⟨n, t, hn, hrun, hdone, herr, hmem, hout⟩ :=
    runFor_encodeCall (s := { s with pending := [] }) rfl h.mode h.length h.fits h.input
  obtain ⟨k, hk, hend, hbefore⟩ := runFor_until_end rfl rfl hrun (by simp [hdone])
  have hone : ∀ j, runFor (j + 1) s = runFor j (State.startEnc { s with pending := [] }) :=
    fun j => by rw [runFor_succ, hstart, andThen_next]
  refine ⟨k, t, hk.trans hn, (hone k).trans hend, fun j hj => ?_, hdone, herr, ?_, hout, ?_, ?_⟩
  · rw [hone j]
    exact hbefore j hj
  · rw [hmem]
    exact encodeCall_of_fits h.fits
  · rw [hmem]
  · rw [hmem]

end Sys2Proof.Machine

/-! SUPPORT. A decode call on the machine (44_orchestration.md R241, R258, R259). What a call comes to is read
backwards: from VERIFY it is the length check's outcome; from UNPACK, token by token, the Unpacker's failure or
VERIFY's outcome on the bytes expanded; from HEADER the header's failure or UNPACK's outcome; from MAP FROMCP's
failure or HEADER's. -/

namespace Sys2Proof.Machine

/-! ### Along a decode call (R61, R251) -/

/-- R61: no step of a call writes an input buffer. -/
theorem runFor_input_eq {n : Nat} {s t : State} (hp : s.pending = []) (h : runFor n s = .next t) :
    t.mem.ib = s.mem.ib ∧ t.mem.ic = s.mem.ic := by
  induction n generalizing s with
  | zero =>
    cases h
    exact ⟨rfl, rfl⟩
  | succ n ih =>
    rw [runFor_succ] at h
    obtain ⟨u, hu, hrest⟩ := andThen_eq_next h
    obtain ⟨hib, hic⟩ := ih (step_pending hp hu) hrest
    by_cases hb : s.callState = .busy
    · obtain ⟨hib', hic', -⟩ := busyStepOnlyAppends s u hb hu
      exact ⟨hib.trans hib', hic.trans hic'⟩
    · rw [step_idle hb hp] at hu
      cases hu
      exact ⟨hib, hic⟩

/-- DEC's invariant along a call. -/
theorem runFor_keeps_decInv {n : Nat} {s t : State} (h : DecRuns s) (hi : DecInv s) (hrun : runFor n s = .next t)
    (hb : t.callState = .busy) : DecInv t := by
  refine (runFor_keeps (P := fun u => u.mode = 1#1 ∧ DecInv u) ?_ h.pending ⟨h.mode, hi⟩ hrun hb).2
  rintro u v hp hub ⟨hm, hu⟩ hstep hvb
  have hmove := decMove_of_decStep (DecRuns.step_eq ⟨hp, hub, hm⟩ ▸ hstep)
  exact ⟨hmove.call_eq.1.trans hm, hmove.keeps_decInv hu hvb⟩

/-- R251: what the host finds after a decode call of this outcome. -/
def EndedWith (t : State) : Except FailureKind (List Byte) → Prop
  | .ok out => t.callState = .done ∧ t.errCode = 0 ∧ t.mem.ob = out ∧ t.outLen.toNat = out.length
  | .error k => t.callState = .failed ∧ t.errCode = k.code ∧ t.outLen = 0

/-- From `s` the machine comes to the end of a decode call of this outcome. -/
def EndsWith (s : State) (r : Except FailureKind (List Byte)) : Prop := ∃ n t, runFor n s = .next t ∧ EndedWith t r

theorem EndsWith.of_runFor {n : Nat} {s u : State} {r : Except FailureKind (List Byte)} (hrun : runFor n s = .next u)
    (h : EndsWith u r) : EndsWith s r := by
  obtain ⟨k, t, hend, ht⟩ := h
  exact ⟨n + k, t, by rw [runFor_add, hrun, andThen_next, hend], ht⟩

theorem EndsWith.of_step {s u : State} {r : Except FailureKind (List Byte)} (hstep : step s = .next u)
    (h : EndsWith u r) : EndsWith s r :=
  h.of_runFor ((runFor_one s).trans hstep)

/-- R288: a step that raises a failure ends the call. -/
theorem EndsWith.of_failCall {s : State} {k : FailureKind} (hstep : step s = .next (s.failCall k)) :
    EndsWith s (.error k) :=
  ⟨1, _, (runFor_one s).trans hstep, rfl, rfl, rfl⟩

theorem EndedWith.notBusy {t : State} {r : Except FailureKind (List Byte)} (h : EndedWith t r) :
    t.callState ≠ .busy := by
  cases r with
  | ok out => simp [h.1]
  | error k => simp [h.1]

/-! ### VERIFY (R243) -/

/-- R170, R243: the registers say that the bytes appended are as many as the header's value when they are. -/
theorem DecInv.mismatch_eq_false_iff {s : State} (h : DecInv s) :
    s.dec.mismatch = false ↔ s.mem.ob.length = s.dec.hdr.toNat := by
  have hcount := h.count
  have hovf := h.overflow
  have hhdr := s.dec.hdr.isLt
  rw [DecRegs.mismatch, Bool.or_eq_false_iff, decide_eq_false_iff_not, not_not, ← BitVec.toNat_inj, hcount]
  cases hv : s.dec.ovf with
  | false =>
    have hlt : s.mem.ob.length < 2 ^ 48 := Nat.lt_of_not_le fun hge => by simp [hovf.2 hge] at hv
    rw [Nat.mod_eq_of_lt hlt]
    exact and_iff_right rfl
  | true =>
    have hge := hovf.1 hv
    exact iff_of_false (fun h => nomatch h.1) (by omega)

theorem endsWith_verify {s : State} (h : DecRuns s) (hi : DecInv s) (hp : s.dec.phase = .verify) :
    EndsWith s (if s.mem.ob.length = s.dec.hdr.toNat then .ok s.mem.ob else .error .lengthMismatch) := by
  have hstep : step s = decVer s := by simp [h.step_eq, decStep, hp]
  by_cases hlen : s.mem.ob.length = s.dec.hdr.toNat
  · have hagree := hi.mismatch_eq_false_iff.2 hlen
    have hfinish : step s = .next s.finishDec := by rw [hstep, decVer, hagree]; rfl
    have hhdr := s.dec.hdr.isLt
    have hcount := hi.count
    rw [if_pos hlen]
    refine ⟨1, _, (runFor_one s).trans hfinish, rfl, rfl, rfl, ?_⟩
    rw [State.finishDec_outLen, BitVec.toNat_setWidth_of_le (by decide), hcount]
    exact Nat.mod_eq_of_lt (hlen ▸ hhdr)
  · have hmismatch : s.dec.mismatch = true := by
      rw [← Bool.not_eq_false, hi.mismatch_eq_false_iff]
      exact hlen
    rw [if_neg hlen]
    exact EndsWith.of_failCall (by rw [hstep, decVer, hmismatch]; rfl)

/-! ### UNPACK and EXPAND (R191 to R197) -/

/-- R105, R195: the symbols after a PRUN head are fewer than two, or one of the two is reserved. -/
def OperandsMalformed (rest : List Sym) : Prop :=
  rest.length < 2 ∨ ∃ a c tail, rest = a :: c :: tail ∧ (patternByte a = none ∨ patternByte c = none)

/-- R191 to R197: a body is at its end, begins with a packed token, or is refused at its first symbol: a reserved
literal, or a PRUN whose operands are cut short or reserved. -/
theorem body_front_cases (body : List Sym) :
    body = [] ∨ (∃ t rest, Token.Fits t ∧ body = t.pack ++ rest) ∨
    (∃ w rest x, body = w :: rest ∧ decodeToken w ∈ [Instr.rsv100 x, .rsv200 x, .rsv300 x]) ∨
    (∃ w rest len, body = w :: rest ∧ decodeToken w = .prun len ∧ OperandsMalformed rest) := by
  cases body with
  | nil => exact .inl rfl
  | cons w rest =>
    right
    rcases decodeToken_cases w with ⟨v, n, hw⟩ | ⟨len, hw⟩ | hw
    · left
      rcases byteRunOf_cases hw with ⟨hdec, -⟩ | ⟨len, hdec, -⟩ | ⟨len, hdec, -⟩
      · exact ⟨.literal v, rest, Token.fits_literal v, by rw [Token.pack_literal, ← hdec, encodeSym_decodeToken]; rfl⟩
      · exact ⟨_, rest, Token.fits_run_toNat .zeroRun len, by
          rw [Token.pack_zeroRun, ← hdec, encodeSym_decodeToken]; rfl⟩
      · exact ⟨_, rest, Token.fits_run_toNat .ffRun len, by
          rw [Token.pack_ffRun, ← hdec, encodeSym_decodeToken]; rfl⟩
    · match rest with
      | [] | [_] => exact .inr (.inr ⟨w, _, len, rfl, hw, .inl (by simp)⟩)
      | a :: c :: tail =>
        cases ha : patternByte a with
        | none => exact .inr (.inr ⟨w, _, len, rfl, hw, .inr ⟨a, c, tail, rfl, .inl ha⟩⟩)
        | some p0 =>
          cases hc : patternByte c with
          | none => exact .inr (.inr ⟨w, _, len, rfl, hw, .inr ⟨a, c, tail, rfl, .inr hc⟩⟩)
          | some p1 =>
            refine .inl ⟨_, tail, Token.fits_run_toNat (.patternRun p0 p1) len, ?_⟩
            have ha' : encodeSym (.pat0 p0) = a := append_patternByte ha
            have hc' : encodeSym (.pat1 p1) = c := append_patternByte hc
            rw [Token.pack_patternRun, ← hw, encodeSym_decodeToken, ha', hc']
            rfl
    · exact .inr (.inl ⟨w, rest, symByte w, rfl, hw⟩)

/-- DEC in a decode call on the symbols `ws`, about to unpack the token at index `j`. -/
structure DecUnpacks (s : State) (ws : List Sym) (j : Nat) : Prop where
  runs : DecRuns s
  inv : DecInv s
  phase : s.dec.phase = .unpack
  scur : s.dec.scur.toNat = j
  m : s.dec.m.toNat = ws.length
  symbols : ∀ i w, ws[i]? = some w → SymbolAt s i w

theorem DecUnpacks.of_runFor {n j k : Nat} {s t : State} {ws : List Sym} (h : DecUnpacks s ws j)
    (hrun : runFor n s = .next t) (ht : DecRuns t) (hphase : t.dec.phase = .unpack) (hm : t.dec.m = s.dec.m)
    (hscur : t.dec.scur.toNat = k) : DecUnpacks t ws k where
  runs := ht
  inv := runFor_keeps_decInv h.runs h.inv hrun ht.busy
  phase := hphase
  scur := hscur
  m := by rw [hm, h.m]
  symbols := fun i w hw => by
    obtain ⟨c, hread, hc⟩ := h.symbols i w hw
    refine ⟨c, ?_, hc⟩
    rwa [State.readIC, (runFor_input_eq h.runs.pending hrun).2]

section
variable {s : State} {ws : List Sym} {j : Nat} (h : DecUnpacks s ws j)
include h

/-- The symbol at some distance from `SCUR`, by its place in what is left of the body. -/
theorem DecUnpacks.symbolAt {i : Nat} {w : Sym} {body : List Sym} (hbody : ws.drop j = body) (hw : body[i]? = some w) :
    SymbolAt s (s.dec.scur.toNat + i) w := by
  rw [← hbody, List.getElem?_drop] at hw
  rw [h.scur]
  exact h.symbols _ w hw

theorem DecUnpacks.scur_add {body : List Sym} (hbody : ws.drop j = body) {k : Nat} (hk : k ≤ body.length)
    (hpos : 1 ≤ k) : s.dec.scur.toNat + k ≤ s.dec.m.toNat ∧ (s.dec.scur + BitVec.ofNat 49 k).toNat = j + k := by
  have hlen := congrArg List.length hbody
  have hm := s.dec.m.isLt
  rw [List.length_drop, ← h.m] at hlen
  rw [BitVec.toNat_add, BitVec.toNat_ofNat, h.scur]
  omega

theorem DecUnpacks.scur_lt {w : Sym} {rest : List Sym} (hbody : ws.drop j = w :: rest) : s.dec.scur < s.dec.m :=
  (h.scur_add hbody (k := 1) (by simp) le_rfl).1

theorem DecUnpacks.step_token {w : Sym} {rest : List Sym} (hbody : ws.drop j = w :: rest) :
    step s = exec (decodeToken w) s :=
  h.runs.step_token h.phase (h.scur_lt hbody) (h.symbolAt hbody (i := 0) rfl) rfl

/-- R193 to R195: from the token at `SCUR`, its bytes are appended and DEC comes back to UNPACK behind its symbols. -/
theorem DecUnpacks.token {t : Token} {rest : List Sym} (ht : t.Fits) (hbody : ws.drop j = t.pack ++ rest) :
    ∃ n u, runFor n s = .next u ∧ DecUnpacks u ws (j + t.pack.length) ∧ u.mem.ob = s.mem.ob ++ t.expand ∧
      u.dec.hdr = s.dec.hdr := by
  have hscur := h.scur_add hbody (k := t.pack.length) (by simp) t.length_pack_pos
  cases t with
  | literal b =>
    have hrun : runFor 1 s = _ := (runFor_one s).trans ((h.step_token hbody).trans
      (congrArg (exec · s) (decodeToken_encodeSym (i := .lit b) rfl)))
    refine ⟨1, _, hrun, h.of_runFor hrun ⟨h.runs.pending, h.runs.busy, h.runs.mode⟩ h.phase rfl hscur.2, rfl, rfl⟩
  | run k len =>
    obtain ⟨l, rfl⟩ := ht.exists_runLen
    cases k with
    | zeroRun =>
      rw [Token.pack_zeroRun] at hbody hscur ⊢
      have hrun := byteRunsExpand s _ l (.zrun l) 0x00#8 1#2 (.inl ⟨rfl, rfl, rfl⟩) h.runs h.phase (h.scur_lt hbody)
        (h.symbolAt hbody (i := 0) rfl) (congrArg Except.ok (decodeToken_encodeSym rfl))
      exact ⟨_, _, hrun, h.of_runFor hrun ⟨h.runs.pending, h.runs.busy, h.runs.mode⟩ h.phase rfl hscur.2, rfl, rfl⟩
    | ffRun =>
      rw [Token.pack_ffRun] at hbody hscur ⊢
      have hrun := byteRunsExpand s _ l (.frun l) 0xFF#8 2#2 (.inr ⟨rfl, rfl, rfl⟩) h.runs h.phase (h.scur_lt hbody)
        (h.symbolAt hbody (i := 0) rfl) (congrArg Except.ok (decodeToken_encodeSym rfl))
      exact ⟨_, _, hrun, h.of_runFor hrun ⟨h.runs.pending, h.runs.busy, h.runs.mode⟩ h.phase rfl hscur.2, rfl, rfl⟩
    | patternRun p0 p1 =>
      rw [Token.pack_patternRun] at hbody hscur ⊢
      have hrun := patternRunsExpand s _ _ _ l p0 p1 h.runs h.phase (Nat.lt_of_succ_le hscur.1)
        (h.symbolAt hbody (i := 0) rfl) (congrArg Except.ok (decodeToken_encodeSym rfl))
        (h.symbolAt hbody (i := 1) rfl) (decodeSym_encodeSym (.pat0 p0))
        (h.symbolAt hbody (i := 2) rfl) (decodeSym_encodeSym (.pat1 p1))
      exact ⟨_, _, hrun, h.of_runFor hrun ⟨h.runs.pending, h.runs.busy, h.runs.mode⟩ h.phase rfl hscur.2, rfl, rfl⟩

/-- R195: a PRUN head whose operands are cut short or reserved fails the call. -/
theorem DecUnpacks.step_prun_malformed {w : Sym} {rest : List Sym} {len : RunLen} (hbody : ws.drop j = w :: rest)
    (hw : decodeToken w = .prun len) (hrest : OperandsMalformed rest) :
    step s = .next (s.failCall .malformedBody) := by
  rw [h.step_token hbody, hw]
  rcases hrest with hcut | ⟨a, c, tail, rfl, hnone⟩
  · refine exec_prun_cut len ?_
    have hlen := congrArg List.length hbody
    rw [List.length_drop, ← h.m, ← h.scur, List.length_cons] at hlen
    omega
  · have hscur := h.scur_add hbody (k := 3) (by simp) (by decide)
    exact exec_prun_reserved len (Nat.lt_of_succ_le hscur.1) (h.symbolAt hbody (i := 1) rfl)
      (h.symbolAt hbody (i := 2) rfl) hnone

end

/-- R258: D.EOB at the end of the body. -/
theorem DecUnpacks.step_end {s : State} {ws : List Sym} (h : DecUnpacks s ws ws.length) :
    step s = .next (s.setDec { s.dec with phase := .verify }) := by
  have heq : s.dec.scur = s.dec.m := BitVec.eq_of_toNat_eq (h.scur.trans h.m.symm)
  simp [h.runs.step_eq, decStep, h.phase, heq]

/-- The outcome of a call that has appended `done` and has `body` to unpack, its header's value `n` (R241, R243). -/
def outcomeFrom (done : List Byte) (n : Len48) (body : List Sym) : Except FailureKind (List Byte) :=
  (unpack body).bind fun ts =>
    if (done ++ decompress ts).length = n.toNat then .ok (done ++ decompress ts) else .error .lengthMismatch

theorem outcomeFrom_pack_append {t : Token} (ht : t.Fits) (done : List Byte) (n : Len48) (rest : List Sym) :
    outcomeFrom done n (t.pack ++ rest) = outcomeFrom (done ++ t.expand) n rest := by
  rw [outcomeFrom, outcomeFrom, unpack_pack_append ht]
  cases unpack rest with
  | error k => rfl
  | ok ts => simp only [Except.map, Except.bind, decompress_cons, List.append_assoc]

theorem outcomeFrom_of_unpack_error {k : FailureKind} {body : List Sym} (h : unpack body = .error k) (done : List Byte)
    (n : Len48) : outcomeFrom done n body = .error k := by
  rw [outcomeFrom, h]
  rfl

theorem unpack_prun_malformed {w : Sym} {rest : List Sym} {len : RunLen} (hw : decodeToken w = .prun len)
    (hrest : OperandsMalformed rest) :
    unpack (w :: rest) = .error .malformedBody := by
  rcases unpack_prun_cases hw rest with herr | ⟨p0, p1, tail, rfl⟩
  · exact herr
  · rcases hrest with hcut | ⟨a, c, tail', heq, hnone⟩
    · simp at hcut
    · cases heq
      rw [patternByte_pat0, patternByte_pat1] at hnone
      rcases hnone with hnone | hnone <;> cases hnone

/-- R259: from UNPACK, a call ends with the outcome of the body that is left. -/
theorem endsWith_unpack {s : State} {ws : List Sym} {j : Nat} (h : DecUnpacks s ws j) (hj : j ≤ ws.length) :
    EndsWith s (outcomeFrom s.mem.ob s.dec.hdr (ws.drop j)) := by
  rcases body_front_cases (ws.drop j) with hnil | ⟨t, rest, ht, hbody⟩ | ⟨w, rest, x, hbody, hw⟩ |
    ⟨w, rest, len, hbody, hw, hrest⟩
  · obtain rfl : j = ws.length := le_antisymm hj (List.drop_eq_nil_iff.1 hnil)
    have hstep := h.step_end
    have hinv := runFor_keeps_decInv h.runs h.inv ((runFor_one s).trans hstep) h.runs.busy
    have hverify := endsWith_verify (s := s.setDec { s.dec with phase := .verify })
      ⟨h.runs.pending, h.runs.busy, h.runs.mode⟩ hinv rfl
    have hend : outcomeFrom s.mem.ob s.dec.hdr [] =
        if s.mem.ob.length = s.dec.hdr.toNat then .ok s.mem.ob else .error .lengthMismatch := by
      simp [outcomeFrom, unpack, Except.bind]
    rw [hnil, hend]
    exact EndsWith.of_step hstep hverify
  · have hlen := congrArg List.length hbody
    have hpos := t.length_pack_pos
    rw [List.length_drop, List.length_append] at hlen
    have hshorter : ws.length - (j + t.pack.length) < ws.length - j := by omega
    have hdrop : ws.drop (j + t.pack.length) = rest := by rw [← List.drop_drop, hbody, List.drop_left]
    obtain ⟨n, u, hrun, hu, hob, hhdr⟩ := h.token ht hbody
    have hrest := endsWith_unpack hu (by omega)
    rw [hob, hhdr, hdrop] at hrest
    rw [hbody, outcomeFrom_pack_append ht]
    exact hrest.of_runFor hrun
  · rw [hbody, outcomeFrom_of_unpack_error (unpack_reserved hw rest)]
    exact EndsWith.of_failCall ((h.step_token hbody).trans (exec_reserved hw s))
  · rw [hbody, outcomeFrom_of_unpack_error (unpack_prun_malformed hw hrest)]
    exact EndsWith.of_failCall (h.step_prun_malformed hbody hw hrest)
termination_by ws.length - j

/-! ### HEADER (R223, R224) -/

/-- R223, R258: with the header read the call is at UNPACK, behind the four symbols. -/
theorem endsWith_header {s : State} {ws : List Sym} (h : DecRuns s) (hi : DecInv s) (hp : s.dec.phase = .header)
    (hm : s.dec.m.toNat = ws.length) (hsym : ∀ i w, ws[i]? = some w → SymbolAt s i w) :
    EndsWith s ((readHeader ws).bind fun p => outcomeFrom s.mem.ob p.1 p.2) := by
  match ws with
  | [] | [_] | [_, _] | [_, _, _] =>
    have hshort : s.dec.m.toNat < Config.headerSymbols := by rw [hm]; simp [Config.headerSymbols]
    refine EndsWith.of_failCall (k := .malformedHeader) ?_
    simp [h.step_eq, decStep, hp, decHdr, hshort]
  | w3 :: w2 :: w1 :: w0 :: body =>
    have hlong : 4 ≤ s.dec.m.toNat := by rw [hm]; simp
    have hstep : step s = .next (s.setDec (s.dec.loadHeader w3 w2 w1 w0)) :=
      (h.step_header hp hlong (hsym 0 w3 rfl) (hsym 1 w2 rfl) (hsym 2 w1 rfl) (hsym 3 w0 rfl)).trans
        (exec_header w3 w2 w1 w0 hlong)
    have hruns : DecRuns (s.setDec (s.dec.loadHeader w3 w2 w1 w0)) := ⟨h.pending, h.busy, h.mode⟩
    have hunpack : DecUnpacks (s.setDec (s.dec.loadHeader w3 w2 w1 w0)) (w3 :: w2 :: w1 :: w0 :: body) 4 :=
      ⟨hruns, runFor_keeps_decInv h hi ((runFor_one s).trans hstep) h.busy, rfl, rfl, hm, hsym⟩
    exact (endsWith_unpack hunpack (by simp)).of_step hstep

/-! ### MAP (R190, R242) -/

/-- DEC in a decode call on the code points `cs`, those before index `j` found in range. -/
structure DecMaps (s : State) (cs : List CPIn) (j : Nat) : Prop where
  runs : DecRuns s
  inv : DecInv s
  phase : s.dec.phase = .map
  mcur : s.dec.mcur.toNat = j
  m : s.dec.m.toNat = cs.length
  input : ∀ i < cs.length, s.readIC i = cs[i]?

section
variable {s : State} {cs : List CPIn} {j : Nat} (h : DecMaps s cs j)
include h

theorem DecMaps.step_eq : step s = decMap s := by
  simp [h.runs.step_eq, decStep, h.phase]

/-- D.MAP at an index below the length: the code point there decides. -/
theorem DecMaps.step_read {x : CPIn} (hx : cs[j]? = some x) : step s =
    if inRange x then .next (s.setDec { s.dec with mcur := s.dec.mcur + 1 })
    else .next (s.failCall .outOfRangeSymbol) := by
  obtain ⟨hj, -⟩ := List.getElem?_eq_some_iff.1 hx
  have hne : s.dec.mcur ≠ s.dec.m := fun heq => by
    have hnat := congrArg BitVec.toNat heq
    rw [h.mcur, h.m] at hnat
    omega
  have hread : s.readIC s.dec.mcur.toNat = some x := by rw [h.mcur, h.input j hj, hx]
  rw [h.step_eq, decMap, if_neg hne, hread]

/-- One code point in range is passed over. -/
theorem DecMaps.step_pass {x : CPIn} (hx : cs[j]? = some x) (hin : inRange x = true) :
    ∃ t, step s = .next t ∧ DecMaps t cs (j + 1) ∧ t.mem = s.mem := by
  obtain ⟨hj, -⟩ := List.getElem?_eq_some_iff.1 hx
  have hstep := h.step_read hx
  rw [if_pos hin] at hstep
  have hmcur := h.mcur
  have hm := h.m
  have hsucc : (s.dec.mcur + 1).toNat = j + 1 := by bv_omega
  exact ⟨_, hstep, ⟨⟨h.runs.pending, h.runs.busy, h.runs.mode⟩,
    runFor_keeps_decInv h.runs h.inv ((runFor_one s).trans hstep) h.runs.busy, h.phase, hsucc, h.m, h.input⟩, rfl⟩

end

/-- D.MAP passes over the code points in range at the front. -/
theorem DecMaps.pass {s : State} {cs : List CPIn} (h : DecMaps s cs 0) {k : Nat} (hk : k ≤ cs.length)
    (hin : ∀ i < k, ∀ x, cs[i]? = some x → inRange x = true) :
    ∃ t, runFor k s = .next t ∧ DecMaps t cs k ∧ t.mem = s.mem := by
  induction k with
  | zero => exact ⟨s, rfl, h, rfl⟩
  | succ k ih =>
    obtain ⟨t, hrun, ht, hmem⟩ := ih (Nat.le_of_succ_le hk) fun i hi => hin i (Nat.lt_succ_of_lt hi)
    have hx : cs[k]? = some cs[k] := List.getElem?_eq_getElem hk
    obtain ⟨u, hstep, hu, hmem'⟩ := ht.step_pass hx (hin k (Nat.lt_succ_self k) _ hx)
    exact ⟨u, by rw [runFor_add, hrun, andThen_next, runFor_one, hstep], hu, hmem'.trans hmem⟩

/-- R190, R242: the first code point out of range fails the call in MAP. -/
theorem endsWith_map_outOfRange {s : State} {cs : List CPIn} (h : DecMaps s cs 0) (hout : ∃ x ∈ cs, inRange x = false) :
    EndsWith s (.error .outOfRangeSymbol) := by
  have hex : ∃ k : Nat, ∃ x, cs[k]? = some x ∧ inRange x = false := by
    obtain ⟨x, hx, hr⟩ := hout
    obtain ⟨k, hk⟩ := List.mem_iff_getElem?.1 hx
    exact ⟨k, x, hk, hr⟩
  classical
  obtain ⟨x, hx, hr⟩ := Nat.find_spec hex
  obtain ⟨hlt, -⟩ := List.getElem?_eq_some_iff.1 hx
  obtain ⟨t, hrun, ht, -⟩ := h.pass (k := Nat.find hex) hlt.le fun i hi y hy => by
    by_contra hne
    exact Nat.find_min hex hi ⟨y, hy, by simpa using hne⟩
  have hstep := ht.step_read hx
  rw [hr] at hstep
  exact (EndsWith.of_failCall hstep).of_runFor hrun

/-- R190: the symbols FROMCP gives, element by element. -/
theorem fromCodePoints_getElem? {cs : List CPIn} {ws : List Sym} (h : fromCodePoints cs = .ok ws) (i : Nat) (w : Sym)
    (hw : ws[i]? = some w) : ∃ x, cs[i]? = some x ∧ fromCodePoint x = .ok w := by
  induction cs generalizing ws i with
  | nil => cases h; simp at hw
  | cons x cs ih =>
    simp only [fromCodePoints] at h
    cases hx : fromCodePoint x with
    | error e => simp [hx] at h
    | ok v =>
      cases hcs : fromCodePoints cs with
      | error k => simp [hx, hcs] at h
      | ok vs =>
        simp only [hx, hcs, Except.ok.injEq] at h
        subst h
        cases i with
        | zero => exact ⟨x, rfl, by rw [hx]; simpa using hw⟩
        | succ i => simpa using ih hcs i (by simpa using hw)

/-- R190, R258: past the last code point the call is at HEADER, and each element is a symbol. -/
theorem endsWith_map_inRange {s : State} {cs : List CPIn} {ws : List Sym} (h : DecMaps s cs 0)
    (hws : fromCodePoints cs = .ok ws) (hlen : ws.length = cs.length) (hin : ∀ x ∈ cs, inRange x = true) :
    EndsWith s ((readHeader ws).bind fun p => outcomeFrom s.mem.ob p.1 p.2) := by
  obtain ⟨t, hrun, ht, hmem⟩ := h.pass le_rfl fun i _ x hx => hin x (List.mem_of_getElem? hx)
  have heq : t.dec.mcur = t.dec.m := BitVec.eq_of_toNat_eq (ht.mcur.trans ht.m.symm)
  have hstep : step t = .next (t.setDec { t.dec with phase := .header }) := by rw [ht.step_eq, decMap, if_pos heq]
  have hruns : DecRuns (t.setDec { t.dec with phase := .header }) := ⟨ht.runs.pending, ht.runs.busy, ht.runs.mode⟩
  have hinv := runFor_keeps_decInv ht.runs ht.inv ((runFor_one t).trans hstep) ht.runs.busy
  have hheader := endsWith_header hruns hinv rfl (ht.m.trans hlen.symm) fun i w hw => by
    obtain ⟨x, hx, hw'⟩ := fromCodePoints_getElem? hws i w hw
    obtain ⟨hi, -⟩ := List.getElem?_eq_some_iff.1 hx
    exact ⟨x, (ht.input i hi).trans hx, hw'⟩
  rw [← hmem]
  exact (hheader.of_step hstep).of_runFor hrun

/-! ### The whole call (R259) -/

/-- R241: a decode call on symbols is the header's failure or the outcome of the body. -/
theorem decodeCall_eq_outcomeFrom {cs : List CPIn} {ws : List Sym} (h : fromCodePoints cs = .ok ws) :
    decodeCall cs = (readHeader ws).bind fun p => outcomeFrom [] p.1 p.2 := by
  cases hr : readHeader ws with
  | error k => exact decodeCall_of_readHeader_error h hr
  | ok p =>
    obtain ⟨n, body⟩ := p
    exact decodeCall_of_readHeader_ok h hr

/-- R259: from START, a decode call ends with what `decode` answers. -/
theorem endsWith_startDec {s : State} {cs : List CPIn} (hp : s.pending = []) (hm : s.mode = 1#1)
    (hlen : s.inLen.toNat = cs.length) (hcs : s.inputCodePoints cs.length = some cs) :
    EndsWith s.startDec (decodeCall cs) := by
  have hmaps : DecMaps s.startDec cs 0 :=
    ⟨⟨hp, rfl, hm⟩, decInv_startDec s, rfl, rfl, hlen, fun i hi => inputCodePoints_readIC hcs i hi⟩
  rcases fromCodePoints_cases cs with ⟨⟨x, hx, hout⟩, -⟩ | ⟨hin, ws, hws, hwslen⟩
  · rw [decodeCall_of_outOfRange ⟨x, hx, hout⟩]
    refine endsWith_map_outOfRange hmaps ⟨x, hx, ?_⟩
    rwa [← inRange_iff, Bool.not_eq_true] at hout
  · rw [decodeCall_eq_outcomeFrom hws]
    exact endsWith_map_inRange hmaps hws hwslen fun x hx => (inRange_iff x).2 (hin x hx)

/-- Settles O49: START, then the call up to its end, which comes once. -/
theorem decodeCallComputesDecode : Obligations.DecodeCallComputesDecode := by
  intro s cs h
  obtain ⟨v, hp, hv, hmv⟩ := h.start
  have hstart : step s = .next (State.startDec { s with pending := [] }) := by
    rw [step_start h.idle hp hv (hmv.trans h.mode.symm)]
    rcases start_cases { s with pending := [] } with ⟨h0, -⟩ | ⟨h0, -⟩ | ⟨-, hs⟩
    · exact absurd (h0.symm.trans h.mode) (by decide)
    · exact absurd (h0.symm.trans h.mode) (by decide)
    · exact hs
  obtain ⟨n, t, hrun, hend⟩ := endsWith_startDec (s := { s with pending := [] }) rfl h.mode h.length h.input
  obtain ⟨k, -, hk, hbefore⟩ := runFor_until_end rfl rfl hrun hend.notBusy
  have hone : ∀ j, runFor (j + 1) s = runFor j (State.startDec { s with pending := [] }) :=
    fun j => by rw [runFor_succ, hstart, andThen_next]
  obtain ⟨hib, hic⟩ := runFor_input_eq rfl hk
  refine ⟨k, t, (hone k).trans hk, fun j hj => by rw [hone j]; exact hbefore j hj, hib, hic, fun out hout => ?_,
    fun e he => ?_⟩
  · rw [hout] at hend
    exact hend
  · rw [he] at hend
    exact hend

end Sys2Proof.Machine

/-! SUPPORT. Successive calls are independent (44_orchestration.md R253). Two states are alike when their results, the
registers the active engine will still read and the input below the length agree; a register is left out until the
engine has written it (R43). START makes two states that agree on the call's parameters alike, and a step keeps them
alike. -/

namespace Sys2Proof.Machine

/-! ### An input buffer is known by its reads (R61) -/

theorem lookup_eq_none_of_lt {w : Nat} {l : List (Nat × BitVec w)} {i : Nat} (h : ∀ x ∈ l, i < x.1) :
    lookup l i = none := by
  induction l with
  | nil => rfl
  | cons x l ih =>
    obtain ⟨j, v⟩ := x
    obtain ⟨hj, hl⟩ := List.forall_mem_cons.1 h
    have hne : j ≠ i := (show i < j from hj).ne'
    rw [lookup, if_neg hne, ih hl]

/-- In a buffer in canonical form a whole read answers the elements that single reads answer. -/
theorem sliceFrom_eq_some_iff {w : Nat} {l : List (Nat × BitVec w)} {i n : Nat} {vs : List (BitVec w)}
    (hl : l.Pairwise fun x y => x.1 < y.1) (hi : ∀ x ∈ l, i ≤ x.1) :
    sliceFrom l i n = some vs ↔ vs.length = n ∧ ∀ j < n, lookup l (i + j) = vs[j]? := by
  refine ⟨sliceFrom_spec, ?_⟩
  rintro ⟨hlen, hread⟩
  induction n generalizing l i vs with
  | zero =>
    obtain rfl := List.eq_nil_of_length_eq_zero hlen
    cases l <;> rfl
  | succ n ih =>
    obtain ⟨v, vs, rfl⟩ := List.exists_cons_of_length_eq_add_one hlen
    have hfirst : lookup l i = some v := hread 0 (Nat.succ_pos n)
    cases l with
    | nil => cases hfirst
    | cons x l =>
      obtain ⟨j, u⟩ := x
      obtain ⟨hj, -⟩ := List.forall_mem_cons.1 hi
      obtain ⟨habove, htail⟩ := List.pairwise_cons.1 hl
      by_cases hji : j = i
      · subst hji
        obtain rfl : u = v := by simpa [lookup] using hfirst
        have hrest := ih (i := j + 1) (vs := vs) htail habove (by simpa using hlen) fun m hm => by
          have hne : j ≠ j + (m + 1) := by omega
          have hm' := hread (m + 1) (Nat.succ_lt_succ hm)
          rw [lookup, if_neg hne] at hm'
          rw [Nat.add_assoc, Nat.add_comm 1 m, hm']
          rfl
        rw [sliceFrom, if_pos rfl, hrest]
      · have hlt : i < j := lt_of_le_of_ne hj (Ne.symm hji)
        have hnone : lookup ((j, u) :: l) i = none :=
          lookup_eq_none_of_lt (List.forall_mem_cons.2 ⟨hlt, fun x hx => hlt.trans (habove x hx)⟩)
        rw [hnone] at hfirst
        cases hfirst

theorem inputBytes_congr {s t : State} {n : Nat} (hs : s.mem.wf) (ht : t.mem.wf)
    (h : ∀ i < n, s.readIB i = t.readIB i) : s.inputBytes n = t.inputBytes n := by
  refine Option.ext fun vs => ?_
  rw [State.inputBytes, State.inputBytes, sliceFrom_eq_some_iff hs.1.1 fun _ _ => Nat.zero_le _,
    sliceFrom_eq_some_iff ht.1.1 fun _ _ => Nat.zero_le _]
  refine and_congr_right fun _ => forall₂_congr fun j hj => ?_
  rw [Nat.zero_add]
  exact Eq.congr_left (h j hj)

/-! ### States that are alike -/

/-- What the host can read of two states agrees, the output buffers included (R248, R252). -/
structure SameResults (s t : State) : Prop where
  callState : s.callState = t.callState
  errCode : s.errCode = t.errCode
  outLen : s.outLen = t.outLen
  oc : s.mem.oc = t.mem.oc
  ob : s.mem.ob = t.mem.ob

theorem SameResults.sameToHost {s t : State} (h : SameResults s t) : SameToHost s t :=
  ⟨h.callState, h.errCode, h.outLen, fun _ => ⟨h.oc, h.ob⟩⟩

/-- ENC's registers agree but for what it will write before it reads it (R36, R43): the kind of run while none is being
packed, and the pair of a run that has none. -/
structure EncRegs.Alike (e f : EncRegs) : Prop where
  n : e.n = f.n
  cur : e.cur = f.cur
  phase : e.phase = f.phase
  hcnt : e.hcnt = f.hcnt
  rlen : e.rlen = f.rlen
  psub : e.psub = f.psub
  ocnt : e.ocnt = f.ocnt
  run : e.rlen ≠ 0 ∨ e.psub ≠ 0 → e.rkind = f.rkind ∧ (e.rkind = 3#2 → e.p0 = f.p0 ∧ e.p1 = f.p1)

/-- DEC's registers agree but for what it will write before it reads it (R37, R43): `HDR` before the header is read, the
kind of run while none is being expanded, and the pair of a run that has none. -/
structure DecRegs.Alike (d e : DecRegs) : Prop where
  m : d.m = e.m
  mcur : d.mcur = e.mcur
  scur : d.scur = e.scur
  phase : d.phase = e.phase
  ocnt : d.ocnt = e.ocnt
  ovf : d.ovf = e.ovf
  rlen : d.rlen = e.rlen
  psub : d.psub = e.psub
  hdr : d.phase ≠ .map → d.phase ≠ .header → d.hdr = e.hdr
  run : d.phase = .expand → d.rkind = e.rkind ∧ (d.rkind ≠ 1#2 → d.rkind ≠ 2#2 → d.p0 = e.p0 ∧ d.p1 = e.p1)

/-- Two encode calls that nothing tells apart. -/
structure EncAlike (s t : State) : Prop where
  left : EncRuns s
  right : EncRuns t
  results : SameResults s t
  regs : s.enc.Alike t.enc
  input : s.inputBytes s.enc.n.toNat = t.inputBytes s.enc.n.toNat

/-- Two decode calls that nothing tells apart. -/
structure DecAlike (s t : State) : Prop where
  left : DecRuns s
  right : DecRuns t
  results : SameResults s t
  regs : s.dec.Alike t.dec
  input : ∀ j < s.dec.m.toNat, s.readIC j = t.readIC j

/-- Two states in a call, or after it, that nothing tells apart. -/
inductive CallAlike (s t : State) : Prop where
  | enc (h : EncAlike s t)
  | dec (h : DecAlike s t)
  | ended (notBusy : s.callState ≠ .busy) (left : s.pending = []) (right : t.pending = []) (results : SameResults s t)

theorem CallAlike.sameResults {s t : State} (h : CallAlike s t) : SameResults s t := by
  cases h with
  | enc h => exact h.results
  | dec h => exact h.results
  | ended _ _ _ h => exact h

/-- Two outcomes that stop alike or lead to related states. -/
def OutcomesRelated (R : State → State → Prop) : Result → Result → Prop
  | .next s, .next t => R s t
  | .fault e, .fault f => e = f
  | .refused e, .refused f => e = f
  | _, _ => False

/-! ### A step of ENC (R257) -/

theorem EncAlike.setEnc {s t : State} {e f : EncRegs} (h : EncAlike s t) (hn : e.n = s.enc.n) (hregs : e.Alike f) :
    CallAlike (s.setEnc e) (t.setEnc f) :=
  .enc ⟨⟨h.left.pending, h.left.busy, h.left.mode⟩, ⟨h.right.pending, h.right.busy, h.right.mode⟩,
    ⟨h.results.callState, h.results.errCode, h.results.outLen, h.results.oc, h.results.ob⟩, hregs, by
      rw [State.setEnc_enc, hn]
      exact h.input⟩

theorem EncAlike.emitSymbol {s t : State} (h : EncAlike s t) (w : Sym) {e f : EncRegs} (hn : e.n = s.enc.n)
    (hregs : e.Alike f) : CallAlike ((s.emitSymbol w).setEnc e) ((t.emitSymbol w).setEnc f) :=
  .enc ⟨⟨h.left.pending, h.left.busy, h.left.mode⟩, ⟨h.right.pending, h.right.busy, h.right.mode⟩,
    ⟨h.results.callState, h.results.errCode, h.results.outLen, by simp [h.results.oc], h.results.ob⟩, hregs, by
      rw [State.setEnc_enc, hn]
      exact h.input⟩

theorem EncAlike.finishEnc {s t : State} (h : EncAlike s t) : CallAlike s.finishEnc t.finishEnc :=
  .ended nofun h.left.pending h.right.pending ⟨rfl, rfl, h.regs.ocnt, h.results.oc, h.results.ob⟩

theorem EncRegs.Alike.loadRun {e f : EncRegs} (h : e.Alike f) (k : Kind) (len : Nat) :
    (e.loadRun k len).Alike (f.loadRun k len) := by
  cases k with
  | zeroRun | ffRun =>
    exact ⟨h.n, by simp [h.cur], h.phase, h.hcnt, rfl, h.psub, h.ocnt, fun _ => ⟨rfl, nofun⟩⟩
  | patternRun p0 p1 =>
    exact ⟨h.n, by simp [h.cur], h.phase, h.hcnt, rfl, h.psub, h.ocnt, fun _ => ⟨rfl, fun _ => ⟨rfl, rfl⟩⟩⟩

section
variable {s t : State} (h : EncAlike s t)
include h

theorem EncAlike.ocnt_succ : s.enc.ocnt + 1 = t.enc.ocnt + 1 := congrArg (· + 1) h.regs.ocnt

theorem EncAlike.encHdr : OutcomesRelated CallAlike (encHdr s) (encHdr t) := by
  unfold Machine.encHdr
  rw [← h.regs.n, ← h.regs.hcnt]
  split
  · exact rfl
  · exact h.emitSymbol _ rfl ⟨h.regs.n, h.regs.cur, rfl, rfl, h.regs.rlen, h.regs.psub, h.ocnt_succ, h.regs.run⟩

theorem EncAlike.encScan : OutcomesRelated CallAlike (encScan s) (encScan t) := by
  unfold Machine.encScan
  rw [← h.regs.n, ← h.regs.cur, ← h.input]
  cases s.inputBytes s.enc.n.toNat with
  | none => exact rfl
  | some b =>
    simp only
    cases nextToken b s.enc.cur.toNat with
    | none => exact rfl
    | some u =>
      cases u with
      | literal x =>
        refine h.emitSymbol _ rfl ⟨h.regs.n, congrArg (· + 1) h.regs.cur, h.regs.phase, h.regs.hcnt, h.regs.rlen,
          h.regs.psub, h.ocnt_succ, h.regs.run⟩
      | run k len =>
        have hrun : OutcomesRelated CallAlike (.next (s.setEnc (s.enc.loadRun k len)))
            (.next (t.setEnc (t.enc.loadRun k len))) :=
          h.setEnc (by simp) (h.regs.loadRun k len)
        cases k with
        | zeroRun | ffRun | patternRun => simpa only [EncRegs.loadRun, h.regs.cur] using hrun

theorem EncAlike.encRun (hr : s.enc.rlen ≠ 0) :
    OutcomesRelated CallAlike (encRun s) (encRun t) := by
  obtain ⟨hkind, hpair⟩ := h.regs.run (.inl hr)
  unfold Machine.encRun
  rw [← h.regs.rlen, ← hkind, ← h.regs.psub]
  refine h.emitSymbol _ rfl ⟨h.regs.n, h.regs.cur, h.regs.phase, h.regs.hcnt, ?_, rfl, h.ocnt_succ,
    fun _ => ⟨hkind, hpair⟩⟩
  exact congrArg (· - _) h.regs.rlen

theorem EncAlike.encPat0 (hi : EncInv s) (hs : s.enc.psub = 1) :
    OutcomesRelated CallAlike (encPat0 s) (encPat0 t) := by
  have hactive : s.enc.psub ≠ 0 := by simp [hs]
  obtain ⟨hkind, hpair⟩ := h.regs.run (.inr hactive)
  unfold Machine.encPat0
  rw [← (hpair (hi.sub.2 hactive)).1]
  exact h.emitSymbol _ rfl ⟨h.regs.n, h.regs.cur, h.regs.phase, h.regs.hcnt, h.regs.rlen, rfl, h.ocnt_succ,
    fun _ => ⟨hkind, hpair⟩⟩

theorem EncAlike.encPat1 (hi : EncInv s) (hs : s.enc.psub = 2) :
    OutcomesRelated CallAlike (encPat1 s) (encPat1 t) := by
  have hactive : s.enc.psub ≠ 0 := by simp [hs]
  obtain ⟨hkind, hpair⟩ := h.regs.run (.inr hactive)
  unfold Machine.encPat1
  rw [← (hpair (hi.sub.2 hactive)).2]
  exact h.emitSymbol _ rfl ⟨h.regs.n, h.regs.cur, h.regs.phase, h.regs.hcnt, h.regs.rlen, rfl, h.ocnt_succ,
    fun _ => ⟨hkind, hpair⟩⟩

/-- R253 for one step of ENC. -/
theorem EncAlike.encStep (hi : EncInv s) : OutcomesRelated CallAlike (encStep s) (encStep t) := by
  unfold Machine.encStep
  rw [← h.regs.phase, ← h.regs.psub, ← h.regs.rlen, ← h.regs.cur, ← h.regs.n]
  split
  · exact h.encHdr
  · split_ifs with h0 hr hlt heq h1 h2
    · exact h.encRun hr
    · exact h.encScan
    · exact h.finishEnc
    · exact rfl
    · exact h.encPat0 hi h1
    · exact h.encPat1 hi h2
    · exact rfl
  · exact rfl

end

/-! ### A step of DEC (R258) -/

theorem DecAlike.setDec {s t : State} {d e : DecRegs} (h : DecAlike s t) (hm : d.m = s.dec.m) (hregs : d.Alike e) :
    CallAlike (s.setDec d) (t.setDec e) :=
  .dec ⟨⟨h.left.pending, h.left.busy, h.left.mode⟩, ⟨h.right.pending, h.right.busy, h.right.mode⟩,
    ⟨h.results.callState, h.results.errCode, h.results.outLen, h.results.oc, h.results.ob⟩, hregs,
    fun j hj => h.input j (hm ▸ hj)⟩

theorem DecAlike.emitByte {s t : State} {d e : DecRegs} (h : DecAlike s t) {b c : Byte} (hb : b = c)
    (hm : d.m = s.dec.m) (hregs : d.Alike e) : CallAlike ((s.emitByte b).setDec d) ((t.emitByte c).setDec e) :=
  .dec ⟨⟨h.left.pending, h.left.busy, h.left.mode⟩, ⟨h.right.pending, h.right.busy, h.right.mode⟩,
    ⟨h.results.callState, h.results.errCode, h.results.outLen, h.results.oc, by simp [h.results.ob, hb]⟩, hregs,
    fun j hj => h.input j (hm ▸ hj)⟩

theorem DecAlike.failCall {s t : State} (h : DecAlike s t) (k : FailureKind) :
    CallAlike (s.failCall k) (t.failCall k) :=
  .ended nofun h.left.pending h.right.pending ⟨rfl, rfl, rfl, h.results.oc, h.results.ob⟩

theorem DecAlike.finishDec {s t : State} (h : DecAlike s t) : CallAlike s.finishDec t.finishDec :=
  .ended nofun h.left.pending h.right.pending
    ⟨rfl, rfl, congrArg (BitVec.setWidth 49) h.regs.ocnt, h.results.oc, h.results.ob⟩

section
variable {s t : State} (h : DecAlike s t)
include h

theorem DecAlike.count_ocnt : s.dec.count.ocnt = t.dec.count.ocnt := congrArg (· + 1) h.regs.ocnt

theorem DecAlike.count_ovf : s.dec.count.ovf = t.dec.count.ovf := by
  simp [h.regs.ovf, h.regs.ocnt, DecRegs.count]

/-- Reading a symbol below the length is the same read in both. -/
theorem DecAlike.withSymbol {j : Nat} {f g : Sym → Result} (hj : j < s.dec.m.toNat)
    (hgo : ∀ w, OutcomesRelated CallAlike (f w) (g w)) :
    OutcomesRelated CallAlike (withSymbol s j f) (withSymbol t j g) := by
  unfold Machine.withSymbol
  rw [← h.input j hj]
  cases s.readIC j with
  | none => exact rfl
  | some c =>
    simp only
    cases fromCodePoint c with
    | error e => exact h.failCall _
    | ok w => exact hgo w

theorem DecAlike.decMap (hi : DecInv s) (hp : s.dec.phase = .map) :
    OutcomesRelated CallAlike (decMap s) (decMap t) := by
  unfold Machine.decMap
  rw [← h.regs.mcur, ← h.regs.m]
  split_ifs with hm
  · exact h.setDec rfl ⟨h.regs.m, h.regs.mcur, h.regs.scur, rfl, h.regs.ocnt, h.regs.ovf, h.regs.rlen, h.regs.psub,
      fun _ hne => absurd rfl hne, nofun⟩
  · have hle := hi.cursor.1
    have hlt : s.dec.mcur.toNat < s.dec.m.toNat := by bv_omega
    rw [← h.input _ hlt]
    cases s.readIC s.dec.mcur.toNat with
    | none => exact rfl
    | some c =>
      simp only
      split_ifs
      · exact h.setDec rfl ⟨h.regs.m, rfl, h.regs.scur, h.regs.phase, h.regs.ocnt, h.regs.ovf, h.regs.rlen,
          h.regs.psub, fun hne => absurd hp hne, fun he => by simp [hp] at he⟩
      · exact h.failCall _

theorem DecAlike.decHdr : OutcomesRelated CallAlike (decHdr s) (decHdr t) := by
  unfold Machine.decHdr Config.headerSymbols
  rw [← h.regs.m]
  split_ifs with hm
  · exact h.failCall _
  · have hlong : 4 ≤ s.dec.m.toNat := Nat.le_of_not_lt hm
    refine h.withSymbol (by omega) fun w3 => h.withSymbol (by omega) fun w2 => h.withSymbol (by omega) fun w1 =>
      h.withSymbol (by omega) fun w0 => ?_
    rw [exec_header w3 w2 w1 w0 hlong, exec_header w3 w2 w1 w0 (h.regs.m ▸ hlong)]
    exact h.setDec rfl ⟨h.regs.m, h.regs.mcur, rfl, rfl, h.regs.ocnt, h.regs.ovf, h.regs.rlen, h.regs.psub,
      fun _ _ => rfl, nofun⟩

section
variable (hp : s.dec.phase = .unpack)
include hp

theorem DecAlike.hdr_unpack : s.dec.hdr = t.dec.hdr := h.regs.hdr (by simp [hp]) (by simp [hp])

theorem DecAlike.execLit (b : Byte) : OutcomesRelated CallAlike (execLit b s) (execLit b t) :=
  h.emitByte rfl rfl ⟨h.regs.m, h.regs.mcur, congrArg (· + 1) h.regs.scur, h.regs.phase, h.count_ocnt, h.count_ovf,
    h.regs.rlen, h.regs.psub, fun _ _ => h.hdr_unpack hp, fun he => by simp [hp] at he⟩

/-- ZRUN and FRUN: the loaded kind has no pair. -/
theorem DecAlike.loadRun {kind : BitVec 2} (hkind : kind = 1#2 ∨ kind = 2#2) (len : RunLen) :
    CallAlike (s.setDec { s.dec.loadRun kind len with phase := .expand })
      (t.setDec { t.dec.loadRun kind len with phase := .expand }) :=
  h.setDec rfl ⟨h.regs.m, h.regs.mcur, congrArg (· + 1) h.regs.scur, rfl, h.regs.ocnt, h.regs.ovf, rfl, h.regs.psub,
    fun _ _ => h.hdr_unpack hp, fun _ => ⟨rfl, fun h1 h2 => absurd hkind (not_or.2 ⟨h1, h2⟩)⟩⟩

theorem DecAlike.execPrun (len : RunLen) : OutcomesRelated CallAlike (execPrun len s) (execPrun len t) := by
  unfold Machine.execPrun withPattern
  rw [← h.regs.m, ← h.regs.scur]
  split_ifs with hcut
  · exact h.failCall _
  · refine h.withSymbol (by omega) fun a => h.withSymbol (by omega) fun c => ?_
    cases patternByte a with
    | none => exact h.failCall _
    | some p0 =>
      cases patternByte c with
      | none => exact h.failCall _
      | some p1 =>
        exact h.setDec (d := s.dec.loadPattern len p0 p1) (e := t.dec.loadPattern len p0 p1) rfl
          ⟨h.regs.m, h.regs.mcur, congrArg (· + 1 + 1 + 1) h.regs.scur, rfl, h.regs.ocnt, h.regs.ovf, rfl, rfl,
            fun _ _ => h.hdr_unpack hp, fun _ => ⟨rfl, fun _ _ => ⟨rfl, rfl⟩⟩⟩

theorem DecAlike.decTok (hlt : s.dec.scur < s.dec.m) : OutcomesRelated CallAlike (decTok s) (decTok t) := by
  unfold Machine.decTok
  rw [← h.regs.scur]
  refine h.withSymbol hlt fun w => ?_
  simp only [decodeSym, decodeToken]
  split_ifs
  · exact h.loadRun hp (.inl rfl) _
  · exact h.loadRun hp (.inr rfl) _
  · exact h.execPrun hp _
  · exact h.failCall _
  · exact h.failCall _
  · exact h.failCall _
  · exact h.execLit hp _

end

theorem DecAlike.decExp (hp : s.dec.phase = .expand) : OutcomesRelated CallAlike (decExp s) (decExp t) := by
  have hhdr : s.dec.hdr = t.dec.hdr := h.regs.hdr (by simp [hp]) (by simp [hp])
  obtain ⟨hkind, hpair⟩ := h.regs.run hp
  unfold Machine.decExp
  rw [← h.regs.rlen, ← hkind, ← h.regs.psub]
  split_ifs with hr h1 h2 hs
  · exact h.setDec rfl ⟨h.regs.m, h.regs.mcur, h.regs.scur, rfl, h.regs.ocnt, h.regs.ovf, h.regs.rlen, h.regs.psub,
      fun _ _ => hhdr, nofun⟩
  · exact h.emitByte rfl rfl ⟨h.regs.m, h.regs.mcur, h.regs.scur, h.regs.phase, h.count_ocnt, h.count_ovf,
      congrArg (· - 1) h.regs.rlen, h.regs.psub, fun _ _ => hhdr, fun _ => ⟨hkind, hpair⟩⟩
  · exact h.emitByte rfl rfl ⟨h.regs.m, h.regs.mcur, h.regs.scur, h.regs.phase, h.count_ocnt, h.count_ovf,
      congrArg (· - 1) h.regs.rlen, h.regs.psub, fun _ _ => hhdr, fun _ => ⟨hkind, hpair⟩⟩
  · exact h.emitByte (hpair h1 h2).1 rfl ⟨h.regs.m, h.regs.mcur, h.regs.scur, h.regs.phase, h.count_ocnt, h.count_ovf,
      h.regs.rlen, rfl, fun _ _ => hhdr, fun _ => ⟨hkind, hpair⟩⟩
  · exact h.emitByte (hpair h1 h2).2 rfl ⟨h.regs.m, h.regs.mcur, h.regs.scur, h.regs.phase, h.count_ocnt, h.count_ovf,
      congrArg (· - 1) h.regs.rlen, rfl, fun _ _ => hhdr, fun _ => ⟨hkind, hpair⟩⟩

theorem DecAlike.decVer (hp : s.dec.phase = .verify) : OutcomesRelated CallAlike (decVer s) (decVer t) := by
  have hhdr : s.dec.hdr = t.dec.hdr := h.regs.hdr (by simp [hp]) (by simp [hp])
  have hmismatch : s.dec.mismatch = t.dec.mismatch := by
    rw [DecRegs.mismatch, DecRegs.mismatch, h.regs.ovf, h.regs.ocnt, hhdr]
  unfold Machine.decVer
  rw [← hmismatch]
  split_ifs
  · exact h.failCall _
  · exact h.finishDec

/-- R253 for one step of DEC. -/
theorem DecAlike.decStep (hi : DecInv s) : OutcomesRelated CallAlike (decStep s) (decStep t) := by
  unfold Machine.decStep
  rw [← h.regs.phase, ← h.regs.scur, ← h.regs.m]
  split
  · exact h.decMap hi ‹_›
  · exact h.decHdr
  · rename_i hp
    split_ifs with hlt heq
    · exact h.decTok hp hlt
    · exact h.setDec rfl ⟨h.regs.m, h.regs.mcur, h.regs.scur, rfl, h.regs.ocnt, h.regs.ovf, h.regs.rlen, h.regs.psub,
        fun _ _ => h.hdr_unpack hp, nofun⟩
    · exact rfl
  · exact h.decExp ‹_›
  · exact h.decVer ‹_›
  · exact rfl

end

/-! ### Calls are independent (R253) -/

/-- A step keeps two states alike, or stops both alike. -/
theorem CallAlike.step {s t : State} (h : CallAlike s t) (hi : Inv s) :
    OutcomesRelated CallAlike (step s) (step t) := by
  cases h with
  | enc h =>
    rw [h.left.step_eq, h.right.step_eq]
    exact h.encStep (hi.encoding h.left.busy h.left.mode)
  | dec h =>
    rw [h.left.step_eq, h.right.step_eq]
    exact h.decStep (hi.decoding h.left.busy h.left.mode)
  | ended hb hs ht hr =>
    rw [step_idle hb hs, step_idle (hr.callState ▸ hb) ht]
    exact .ended hb hs ht hr

theorem OutcomesRelated.cases {R : State → State → Prop} {r q : Result} (h : OutcomesRelated R r q) :
    (∃ s t, r = .next s ∧ q = .next t ∧ R s t) ∨ (∃ e, r = .fault e ∧ q = .fault e) ∨
      ∃ e, r = .refused e ∧ q = .refused e := by
  cases r with
  | next s =>
    cases q with
    | next t => exact .inl ⟨s, t, rfl, rfl, h⟩
    | fault | refused => cases h
  | fault e =>
    cases q with
    | fault f => cases h; exact .inr (.inl ⟨e, rfl, rfl⟩)
    | next | refused => cases h
  | refused e =>
    cases q with
    | refused f => cases h; exact .inr (.inr ⟨e, rfl, rfl⟩)
    | next | fault => cases h

/-- R253: alike, two states go on alike, as long as they go on. -/
theorem CallAlike.runFor {s t : State} (h : CallAlike s t) (hi : Inv s) (k : Nat) :
    SameOutcome (runFor k s) (runFor k t) := by
  induction k generalizing s t with
  | zero => exact h.sameResults.sameToHost
  | succ k ih =>
    rw [runFor_succ, runFor_succ]
    rcases (h.step hi).cases with ⟨u, v, hs, ht, huv⟩ | ⟨e, hs, ht⟩ | ⟨e, hs, ht⟩ <;> rw [hs, ht]
    · exact ih huv (stepKeepsInv s u hi hs)
    · exact rfl
    · exact rfl

/-- R321, R43: at START the invariant holds whatever stood in the registers and the output buffers. -/
theorem inv_of_start {s t : State} (hwf : s.mem.wf) (h : s.start = .next t) : Inv t := by
  rcases start_cases s with ⟨-, -, hs⟩ | ⟨hm, hfits, hs⟩ | ⟨hm, hs⟩ <;> rw [hs] at h <;> cases h
  · exact ⟨hwf, nofun, fun _ => rfl, nofun, fun _ => rfl, nofun, fun _ _ => encInv_startEnc hfits,
      fun _ h1 => absurd (hm.symm.trans h1) (by decide)⟩
  · exact ⟨hwf, nofun, fun _ => rfl, nofun, fun _ => rfl, nofun, fun _ h0 => absurd h0 hm, fun _ _ => decInv_startDec s⟩

/-- R250, R253: START makes two states alike that agree on the call's parameters. -/
theorem start_alike {s t : State} (hs : s.pending = []) (ht : t.pending = []) (hwf : s.mem.wf) (hwf' : t.mem.wf)
    (hmode : s.mode = t.mode) (hlen : s.inLen = t.inLen)
    (hib : s.mode = 0#1 → ∀ i < s.inLen.toNat, s.readIB i = t.readIB i)
    (hic : s.mode = 1#1 → ∀ j < s.inLen.toNat, s.readIC j = t.readIC j) :
    OutcomesRelated CallAlike s.start t.start := by
  unfold State.start
  rw [← hmode, ← hlen]
  split_ifs with hm hlong
  · exact rfl
  · have hregs : s.startEnc.enc.Alike t.startEnc.enc :=
      ⟨congrArg (BitVec.setWidth 48) hlen, rfl, rfl, rfl, rfl, rfl, rfl, by rintro (hr | hr) <;> exact absurd rfl hr⟩
    have hinput : s.startEnc.inputBytes s.startEnc.enc.n.toNat = t.startEnc.inputBytes s.startEnc.enc.n.toNat := by
      refine inputBytes_congr (beginCall_wf hwf) (beginCall_wf hwf') fun i hi => hib hm i (hi.trans_le ?_)
      exact (BitVec.toNat_setWidth 48 s.inLen).trans_le (Nat.mod_le _ _)
    exact .enc ⟨⟨hs, rfl, hm⟩, ⟨ht, rfl, hmode.symm.trans hm⟩, ⟨rfl, rfl, rfl, rfl, rfl⟩, hregs, hinput⟩
  · have hm1 : s.mode = 1#1 := (BitVec.eq_zero_or_eq_one s.mode).resolve_left hm
    have hregs : s.startDec.dec.Alike t.startDec.dec :=
      ⟨hlen, rfl, rfl, rfl, rfl, rfl, rfl, rfl, fun hne => absurd rfl hne, nofun⟩
    exact .dec ⟨⟨hs, rfl, hm1⟩, ⟨ht, rfl, hmode.symm.trans hm1⟩, ⟨rfl, rfl, rfl, rfl, rfl⟩, hregs, hic hm1⟩

/-- Log entry 3: a write of `CTRL` with START begins a call in the mode it writes or in the one before, whichever the
free choice is; it is the same for every state of that mode. -/
theorem step_start_mode {s t : State} {v : RegWord} (hb : s.callState ≠ .busy) (hb' : t.callState ≠ .busy)
    (hmode : s.mode = t.mode) (hp : s.pending = [.writeReg .ctrl v]) (hp' : t.pending = [.writeReg .ctrl v])
    (hv : ctrlStartBit v = true) : ∃ m, (m = ctrlModeBit v ∨ m = s.mode) ∧
      step s = State.start { s with pending := [], mode := m } ∧
      step t = State.start { t with pending := [], mode := m } := by
  rw [step_writeReg hp, step_writeReg hp']
  simp only [State.writeReg, hb, hb', if_false, State.writeCtrl, hv, if_true, ← hmode]
  split_ifs
  · exact ⟨_, .inl rfl, rfl, rfl⟩
  · exact ⟨_, .inr rfl, rfl, by rw [hmode]⟩

/-- Settles O50: START makes the two states alike, and so they stay. -/
theorem callsAreIndependent : Obligations.CallsAreIndependent := by
  intro s t v k hwf hwf' hb hb' hmode hlen hib hic hp hp' hv
  obtain ⟨m, hm, hs, ht⟩ := step_start_mode hb hb' hmode hp hp' hv
  have hwhich : ∀ {c : BitVec 1}, m = c → s.mode = c ∨ ctrlModeBit v = c := fun hc =>
    hm.elim (fun h => .inr (h.symm.trans hc)) fun h => .inl (h.symm.trans hc)
  have halike := start_alike (s := { s with pending := [], mode := m }) (t := { t with pending := [], mode := m })
    rfl rfl hwf hwf' rfl hlen (fun h0 => hib (hwhich h0)) fun h1 => hic (hwhich h1)
  rw [runFor_succ, runFor_succ, hs, ht]
  rcases halike.cases with ⟨u, w, hu, hw, huw⟩ | ⟨e, hu, hw⟩ | ⟨e, hu, hw⟩ <;> rw [hu, hw]
  · exact huw.runFor (inv_of_start (s := { s with pending := [], mode := m }) hwf hu) k
  · exact rfl
  · exact rfl

end Sys2Proof.Machine

/-! SUPPORT. Failures (60_exceptions.md). A decode call is its phases one after another, so each phase's failure is the
call's where the phases before it pass, and no phase raises `EmptyInput`. On the machine only a step of DEC leaves BUSY
for FAILED, and that step is failure entry. -/

namespace Sys2Proof.Machine

/-! ### The phase a decode call fails in (R282 to R287) -/

theorem decodeCall_of_unpack_error {c : List CPIn} {s body : List Sym} {n : Len48} {k : FailureKind}
    (hs : fromCodePoints c = .ok s) (hread : readHeader s = .ok (n, body)) (hbody : unpack body = .error k) :
    decodeCall c = .error k := by
  rw [decodeCall_of_readHeader_ok hs hread, hbody]
  rfl

/-- R284: past the Unpacker the length check decides. -/
theorem decodeCall_of_unpack_ok {c : List CPIn} {s body : List Sym} {n : Len48} {ts : List Token}
    (hs : fromCodePoints c = .ok s) (hread : readHeader s = .ok (n, body)) (hbody : unpack body = .ok ts) :
    decodeCall c = if (decompress ts).length = n.toNat then .ok (decompress ts) else .error .lengthMismatch := by
  rw [decodeCall_of_readHeader_ok hs hread, hbody]
  rfl

/-- R286: no phase raises `EmptyInput`. -/
theorem decodeCall_ne_emptyInput (c : List CPIn) : decodeCall c ≠ .error .emptyInput := by
  rcases fromCodePoints_cases c with ⟨-, herr⟩ | ⟨-, s, hs, -⟩
  · rw [decodeCall_of_fromCodePoints_error herr]
    exact nofun
  by_cases hshort : s.length < 4
  · rw [decodeCall_of_readHeader_error hs (readHeader_of_short hshort)]
    exact nofun
  obtain ⟨n, body, hread, -⟩ := readHeader_of_long (Nat.le_of_not_lt hshort)
  cases hbody : unpack body with
  | error k =>
    rw [decodeCall_of_unpack_error hs hread hbody, unpack_error hbody]
    exact nofun
  | ok ts =>
    rw [decodeCall_of_unpack_ok hs hread hbody]
    split <;> exact nofun

/-- Settles O25: phase by phase, each failing where those before it pass. -/
theorem earliestPhaseFails : Obligations.EarliestPhaseFails := by
  refine fun c => ⟨decodeCall_of_outOfRange, fun s hs => ⟨fun hshort => ?_, fun n body hread =>
    ⟨fun k hbody => ?_, fun ts hbody => ?_⟩⟩, decodeCall_ne_emptyInput c⟩
  · exact decodeCall_of_readHeader_error hs (readHeader_of_short hshort)
  · obtain rfl := unpack_error hbody
    exact ⟨rfl, decodeCall_of_unpack_error hs hread hbody⟩
  · rw [decodeCall_of_unpack_ok hs hread hbody]
    exact ⟨fun hne => if_neg hne, fun heq => if_pos heq⟩

/-! ### The step that fails a call (R280, R288, R291) -/

/-- R280: an encode call does not fail. -/
theorem EncMove.not_failed {s t : State} (h : EncMove s t) (hb : s.callState = .busy) : t.callState ≠ .failed := by
  rcases h.callState with ht | ht <;> simp [ht, hb]

/-- R288: a step of DEC that leaves the call FAILED is failure entry. -/
theorem DecMove.eq_failCall {s t : State} (h : DecMove s t) (hb : s.callState = .busy) (ht : t.callState = .failed) :
    ∃ k, k ≠ .emptyInput ∧ t = s.failCall k := by
  rcases h.effect with ⟨d, rfl⟩ | ⟨b, d, rfl⟩ | ⟨rfl, -⟩ | hfail
  · cases hb.symm.trans ht
  · cases hb.symm.trans ht
  · cases ht
  · exact hfail

/-- R31, R32: while BUSY no act of the host changes `STATUS.STATE`. -/
theorem HostMove.busy_callState {s t : State} {c : HostCmd} (h : HostMove s c t) (hb : s.callState = .busy) :
    t.callState = .busy := by
  rcases h.callState with ht | ⟨hn, -⟩ | ⟨hn, -⟩
  · exact ht.trans hb
  · exact absurd hb hn
  · exact absurd hb hn

/-- Settles O43: of the machine's moves only DEC's failure entry ends a call in FAILED. -/
theorem failureEntryIsPrecise : Obligations.FailureEntryIsPrecise := by
  intro s t hb hstep ht
  cases move_of_step hstep with
  | idle p hn => exact absurd hb hn
  | enc p t _ _ he => exact absurd ht (he.not_failed hb)
  | dec p t _ hm hd =>
    obtain ⟨k, hk, rfl⟩ := hd.eq_failCall hb ht
    exact ⟨(BitVec.eq_zero_or_eq_one s.mode).resolve_left hm, k, hk, rfl⟩
  | host c p t _ hh => cases (hh.busy_callState hb).symm.trans ht

end Sys2Proof.Machine

/-! SUPPORT. Power-on reset (70_reset_and_hazards.md R320). A reset is one act of the host that puts every register but
the host's own script, last read and free-value counter at its reset value; what it leaves is IDLE, where no engine has
an enabled step. -/

namespace Sys2Proof.Machine

/-- R320: outside a call, the step in which the host asserts reset. -/
theorem step_reset {s : State} {rest : List HostCmd} (hb : s.callState ≠ .busy) (hp : s.pending = .reset :: rest) :
    step s = .next { State.reset with pending := rest, readData := s.readData, freeCount := s.freeCount } := by
  simp only [step, turn, hp, hostAct, State.hostReset]
  exact if_neg hb

/-- Settles O51: the reset state is IDLE with no command of the host to do, so its step is an idle one. -/
theorem resetWaitsForStart : Obligations.ResetWaitsForStart :=
  ⟨rfl, rfl, rfl, rfl, rfl, step_idle (s := State.reset) nofun rfl⟩

/-- Settles O52: the step of a reset leaves IDLE, and outside a call no engine has a step (O53). -/
theorem resetReturnsToIdle : Obligations.ResetReturnsToIdle := by
  intro s rest hb hp
  exact ⟨_, step_reset hb hp, rfl, rfl, rfl, rfl, rfl, rfl, noEngineStepOutsideACall _ nofun rfl⟩

end Sys2Proof.Machine

/-! SUPPORT. START of an encode that is too long (93_implementation_defined.md U3, log entry 8): the write of `CTRL` leaves
MODE as it is, so the step is START itself, and of START's three cases the length leaves the refusal. -/

namespace Sys2Proof.Machine

/-- Settles O55: by the cases of START, where the two that begin a call contradict the length or the mode. -/
theorem overlongEncodeIsRefused : Obligations.OverlongEncodeIsRefused := by
  intro s v rest hb hp hv hwritten hmode hlong
  rw [step_start hb hp hv (hwritten.trans hmode.symm)]
  rcases start_cases { s with pending := rest } with ⟨-, -, hrefused⟩ | ⟨-, hfits, -⟩ | ⟨hdec, -⟩
  · exact hrefused
  · exact absurd hfits (Nat.not_lt.2 hlong)
  · exact absurd hmode hdec

end Sys2Proof.Machine
